-- ==== Sys2Proof/Word.lean ====
section
/-! DEFINITION. The word types of the block (00_scope.md R8, R11, R12). -/

namespace Sys2Proof

/-- A 32-bit register or a W-bit tick value, W = 32 (R8). -/
abbrev Word := BitVec 32

/-- An 8-bit field of a command word, or a byte lane of the window (R79, R63). -/
abbrev Byte := BitVec 8

/-- A transition-table entry (30_encoding.md R86). -/
abbrev Entry := BitVec 16

/-- A 4-bit state id (R89), guard code (R87) or action code (R88). -/
abbrev Nibble := BitVec 4

/-- A pin id of PIN_BITS = 8 bits (10_state.md R44). -/
abbrev PinId := BitVec 8

end Sys2Proof
end

