-- ==== Sys2Proof/Syntax.lean ====
section
/-! DEFINITION. The instructions: one constructor per row of spec/opcode_table.json. -/

namespace Sys2Proof

/-- The three formats of the opcode table (30_encoding.md, introduction). -/
inductive Format where
  | cmd32        -- a command word written to CMD (R79)
  | te16Guard    -- a table entry read for its guard (R86, R87)
  | te16Action   -- a table entry read for its action (R86, R88)
  deriving DecidableEq, Repr

/-- The twenty commands (R81), the six guards (R87) and the four actions (R88).
A command carries the SLOT and FLD fields it uses, as index numbers.
A guard row carries the entry's other three fields SRC, TGT, ACTION, and an action row SRC, TGT, GUARD. -/
inductive Instr where
  | nop
  | now
  | delay
  | delayUntil
  | tickset
  | tickstep
  | alloc
  | wrtab (slot : Nat)
  | wrfld (slot : Nat) (fld : Nat)
  | commit (slot : Nat)
  | newButton
  | newBlink
  | destroy (slot : Nat)
  | fire (slot : Nat)
  | rdstate (slot : Nat)
  | rdfld (slot : Nat) (fld : Nat)
  | rdtab (slot : Nat) (idx : Nat)
  | getDuration (slot : Nat)
  | resetDuration (slot : Nat)
  | checkActivity (slot : Nat)
  | gFalse (src tgt action : Nibble)
  | gTrue (src tgt action : Nibble)
  | gPinPressed (src tgt action : Nibble)
  | gPinReleased (src tgt action : Nibble)
  | gTimeout (src tgt action : Nibble)
  | gHalfPeriod (src tgt action : Nibble)
  | aNone (src tgt guard : Nibble)
  | aPressStart (src tgt guard : Nibble)
  | aReleaseStart (src tgt guard : Nibble)
  | aToggle (src tgt guard : Nibble)
  deriving DecidableEq, Repr

/-- The format column of the opcode table. -/
def Instr.format : Instr → Format
  | .nop | .now | .delay | .delayUntil | .tickset | .tickstep | .alloc
  | .wrtab _ | .wrfld _ _ | .commit _ | .newButton | .newBlink | .destroy _
  | .fire _ | .rdstate _ | .rdfld _ _ | .rdtab _ _
  | .getDuration _ | .resetDuration _ | .checkActivity _ => .cmd32
  | .gFalse _ _ _ | .gTrue _ _ _ | .gPinPressed _ _ _ | .gPinReleased _ _ _
  | .gTimeout _ _ _ | .gHalfPeriod _ _ _ => .te16Guard
  | .aNone _ _ _ | .aPressStart _ _ _ | .aReleaseStart _ _ _ | .aToggle _ _ _ => .te16Action

end Sys2Proof
end

