-- ==== Sys2Proof/WellFormed.lean ====
section
/-! DEFINITION. Which instructions have an encoding: the SLOT and FLD operands fit their 8-bit fields (30_encoding.md R79, R84).
The 4-bit fields of a table entry fit by their type, and every 16-bit entry can be stored (R86). -/

namespace Sys2Proof

/-- A SLOT operand fits `c[23:16]` (R84); a slot of NSLOT or more is encodable and refused later (R82). -/
def slotFits (slot : Nat) : Bool := decide (slot < 256)

/-- A FLD or entry-index operand fits `c[15:8]` (R84). -/
def fldFits (fld : Nat) : Bool := decide (fld < 256)

/-- The checks an encodable instruction passes. -/
def Instr.wellFormed : Instr → Bool
  | .wrtab s | .commit s | .destroy s | .fire s | .rdstate s
  | .getDuration s | .resetDuration s | .checkActivity s => slotFits s
  | .wrfld s f | .rdfld s f | .rdtab s f => slotFits s && fldFits f
  | .nop | .now | .delay | .delayUntil | .tickset | .tickstep | .alloc | .newButton | .newBlink => true
  | .gFalse _ _ _ | .gTrue _ _ _ | .gPinPressed _ _ _ | .gPinReleased _ _ _
  | .gTimeout _ _ _ | .gHalfPeriod _ _ _ => true
  | .aNone _ _ _ | .aPressStart _ _ _ | .aReleaseStart _ _ _ | .aToggle _ _ _ => true

end Sys2Proof
end

