-- ==== Sys2Proof/Decode.lean ====
section
/-! DEFINITION. Decoding, total on every word and rejecting by name (30_encoding.md R79 to R89), and the encoder. -/

namespace Sys2Proof

/-- Why a word is no instruction of the format it is read in.
The block reports every illegal command word the same way (R83); the names are the model's own. -/
inductive Illegal where
  | reservedOpcode   -- OP is not in the table of R81
  | rsvNotZero       -- c[7:0] is not 0
  | slotNotZero      -- SLOT is not 0 and the command takes none
  | fldNotZero       -- FLD is not 0 and the command takes none
  | entryTooWide     -- bits 31:16 of a table entry's word are not 0 (R84)
  | reservedGuard    -- guard code 0x6 to 0xF (R87)
  | reservedAction   -- action code 0x4 to 0xF (R88)
  deriving DecidableEq, Repr

/-- What a word decodes as. -/
inductive Decoded where
  | instr (i : Instr)
  | illegal (why : Illegal)
  deriving DecidableEq, Repr

/-- `c[31:24]` (R79). -/
def cmdOp (c : Word) : Byte := c.extractLsb' 24 8
/-- `c[23:16]` (R79). -/
def cmdSlot (c : Word) : Byte := c.extractLsb' 16 8
/-- `c[15:8]` (R79). -/
def cmdFld (c : Word) : Byte := c.extractLsb' 8 8
/-- `c[7:0]` (R79). -/
def cmdRsv (c : Word) : Byte := c.extractLsb' 0 8

/-- `e[15:12]`, SRC (R86). -/
def entrySrc (e : Entry) : Nibble := e.extractLsb' 12 4
/-- `e[11:8]`, TGT (R86). -/
def entryTgt (e : Entry) : Nibble := e.extractLsb' 8 4
/-- `e[7:4]`, GUARD (R86). -/
def entryGuard (e : Entry) : Nibble := e.extractLsb' 4 4
/-- `e[3:0]`, ACTION (R86). -/
def entryAction (e : Entry) : Nibble := e.extractLsb' 0 4

/-- The commands that use SLOT (R82). -/
def usesSlot (op : Nat) : Bool :=
  [0x11, 0x12, 0x13, 0x16, 0x20, 0x21, 0x22, 0x23, 0x30, 0x31, 0x32].contains op

/-- The commands that use FLD (R82). -/
def usesFld (op : Nat) : Bool := [0x12, 0x22, 0x23].contains op

/-- The opcode table (R81): the command of an opcode, given the SLOT and FLD fields. -/
def commandOf (op slot fld : Nat) : Option Instr :=
  match op with
  | 0x00 => some .nop
  | 0x01 => some .now
  | 0x02 => some .delay
  | 0x03 => some .delayUntil
  | 0x04 => some .tickset
  | 0x05 => some .tickstep
  | 0x10 => some .alloc
  | 0x11 => some (.wrtab slot)
  | 0x12 => some (.wrfld slot fld)
  | 0x13 => some (.commit slot)
  | 0x14 => some .newButton
  | 0x15 => some .newBlink
  | 0x16 => some (.destroy slot)
  | 0x20 => some (.fire slot)
  | 0x21 => some (.rdstate slot)
  | 0x22 => some (.rdfld slot fld)
  | 0x23 => some (.rdtab slot fld)
  | 0x30 => some (.getDuration slot)
  | 0x31 => some (.resetDuration slot)
  | 0x32 => some (.checkActivity slot)
  | _ => none

/-- A command word (R82, its checks in the order given there). -/
def decodeCommand (c : Word) : Decoded :=
  match commandOf (cmdOp c).toNat (cmdSlot c).toNat (cmdFld c).toNat with
  | none => .illegal .reservedOpcode
  | some i =>
    if cmdRsv c ≠ 0 then .illegal .rsvNotZero
    else if usesSlot (cmdOp c).toNat = false ∧ cmdSlot c ≠ 0 then .illegal .slotNotZero
    else if usesFld (cmdOp c).toNat = false ∧ cmdFld c ≠ 0 then .illegal .fldNotZero
    else .instr i

/-- A table entry read for its guard (R86, R87). -/
def decodeGuard (e : Entry) : Decoded :=
  match (entryGuard e).toNat with
  | 0x0 => .instr (.gFalse (entrySrc e) (entryTgt e) (entryAction e))
  | 0x1 => .instr (.gTrue (entrySrc e) (entryTgt e) (entryAction e))
  | 0x2 => .instr (.gPinPressed (entrySrc e) (entryTgt e) (entryAction e))
  | 0x3 => .instr (.gPinReleased (entrySrc e) (entryTgt e) (entryAction e))
  | 0x4 => .instr (.gTimeout (entrySrc e) (entryTgt e) (entryAction e))
  | 0x5 => .instr (.gHalfPeriod (entrySrc e) (entryTgt e) (entryAction e))
  | _ => .illegal .reservedGuard

/-- A table entry read for its action (R86, R88). -/
def decodeAction (e : Entry) : Decoded :=
  match (entryAction e).toNat with
  | 0x0 => .instr (.aNone (entrySrc e) (entryTgt e) (entryGuard e))
  | 0x1 => .instr (.aPressStart (entrySrc e) (entryTgt e) (entryGuard e))
  | 0x2 => .instr (.aReleaseStart (entrySrc e) (entryTgt e) (entryGuard e))
  | 0x3 => .instr (.aToggle (entrySrc e) (entryTgt e) (entryGuard e))
  | _ => .illegal .reservedAction

/-- Decoding of a 32-bit word in a given format.
A table entry travels in a 32-bit word whose upper half is 0, as WRTAB takes it from ARG0 (R84). -/
def decode (f : Format) (w : Word) : Decoded :=
  match f with
  | .cmd32 => decodeCommand w
  | .te16Guard => if w >>> 16 = 0 then decodeGuard (w.setWidth 16) else .illegal .entryTooWide
  | .te16Action => if w >>> 16 = 0 then decodeAction (w.setWidth 16) else .illegal .entryTooWide

/-- `OP, SLOT, FLD, 0` as one word (R79). -/
def commandWord (op : Byte) (slot fld : Nat) : Word :=
  op ++ BitVec.ofNat 8 slot ++ BitVec.ofNat 8 fld ++ 0#8

/-- `SRC << 12 | TGT << 8 | GUARD << 4 | ACTION` (R86). -/
def entryWord (src tgt guard action : Nibble) : Entry := src ++ tgt ++ guard ++ action

/-- A table entry as the 32-bit operand that carries it (R84). -/
def entryOperand (src tgt guard action : Nibble) : Word := (entryWord src tgt guard action).setWidth 32

/-- The word of a well-formed instruction (R81, R86, R87, R88). -/
def encode : Instr → Word
  | .nop => commandWord 0x00 0 0
  | .now => commandWord 0x01 0 0
  | .delay => commandWord 0x02 0 0
  | .delayUntil => commandWord 0x03 0 0
  | .tickset => commandWord 0x04 0 0
  | .tickstep => commandWord 0x05 0 0
  | .alloc => commandWord 0x10 0 0
  | .wrtab s => commandWord 0x11 s 0
  | .wrfld s f => commandWord 0x12 s f
  | .commit s => commandWord 0x13 s 0
  | .newButton => commandWord 0x14 0 0
  | .newBlink => commandWord 0x15 0 0
  | .destroy s => commandWord 0x16 s 0
  | .fire s => commandWord 0x20 s 0
  | .rdstate s => commandWord 0x21 s 0
  | .rdfld s f => commandWord 0x22 s f
  | .rdtab s i => commandWord 0x23 s i
  | .getDuration s => commandWord 0x30 s 0
  | .resetDuration s => commandWord 0x31 s 0
  | .checkActivity s => commandWord 0x32 s 0
  | .gFalse src tgt a => entryOperand src tgt 0x0 a
  | .gTrue src tgt a => entryOperand src tgt 0x1 a
  | .gPinPressed src tgt a => entryOperand src tgt 0x2 a
  | .gPinReleased src tgt a => entryOperand src tgt 0x3 a
  | .gTimeout src tgt a => entryOperand src tgt 0x4 a
  | .gHalfPeriod src tgt a => entryOperand src tgt 0x5 a
  | .aNone src tgt g => entryOperand src tgt g 0x0
  | .aPressStart src tgt g => entryOperand src tgt g 0x1
  | .aReleaseStart src tgt g => entryOperand src tgt g 0x2
  | .aToggle src tgt g => entryOperand src tgt g 0x3

/-- The instruction of a decoding, if it is one. -/
def Decoded.toOption : Decoded → Option Instr
  | .instr i => some i
  | .illegal _ => none

/-- DESIGN CHOICE (log entry 5): one entry is both a guard row and an action row of the table.
Which of the two a lone 16-bit word is read as: its action where the guard code is reserved, or is G_FALSE beside an
action other than A_NONE; its guard otherwise. -/
def readsAsAction (e : Entry) : Bool :=
  match decodeAction e with
  | .instr _ => decide (5 < (entryGuard e).toNat) || (decide (entryGuard e = 0) && decide (entryAction e ≠ 0))
  | .illegal _ => false

/-- A lone 16-bit word as one row of the table (log entry 5). -/
def decodeEntry (e : Entry) : Decoded :=
  if readsAsAction e then decodeAction e else decodeGuard e

/-- The instruction whose bits are `w`, numbered as spec/opcode_table.json numbers them: 16 bits are a table entry,
anything else a command word. -/
def decodeTableWord (nbits w : Nat) : Option Instr :=
  if nbits = 16 then (decodeEntry (BitVec.ofNat 16 w)).toOption
  else (decode .cmd32 (BitVec.ofNat 32 w)).toOption

end Sys2Proof
end

