-- ==== Sys2Proof/Config.lean ====
section
/-! DEFINITION. The implementation parameters (00_scope.md R8) and the constants of the window. -/

namespace Sys2Proof.Config

/-- Number of slots (R8). -/
abbrev nslot : Nat := 4

/-- Table entries per slot (R8). -/
abbrev maxEntries : Nat := 16

/-- Width of TICK and of every tick value (R8). -/
abbrev tickBits : Nat := 32

/-- Width of a pin id (R8). -/
abbrev pinBits : Nat := 8

/-- The ID register (10_state.md R27). -/
def idValue : Word := 0x53444701#32

/-- The CONFIG register reports the parameters (10_state.md R33). -/
def configValue : Word :=
  BitVec.ofNat 8 pinBits ++ BitVec.ofNat 8 tickBits ++ BitVec.ofNat 8 maxEntries ++ BitVec.ofNat 8 nslot

/-- Bus address of the window, left to the platform (20_memory.md R69).
No rule of the block reads it but the byte-lane addresses of R63. -/
opaque base : Nat

/-- Real time between tick events, left open and read by no rule (R8, 44_timebase.md R147). -/
opaque tickPeriod : Nat

end Sys2Proof.Config
end

