-- ==== Sys2Proof/Machine/State.lean ====
section
/-! DEFINITION. The state of the block as plain data, and its reset values (10_state.md). -/

namespace Sys2Proof.Machine

/-- SSTAT, a slot's life-cycle status (R38); its value 3 never occurs. -/
inductive SlotStatus where
  | free
  | config
  | active
  deriving DecidableEq, Repr

/-- KIND, a slot's instance kind (R39); its value 3 never occurs. -/
inductive Kind where
  | generic
  | button
  | blink
  deriving DecidableEq, Repr

/-- The eleven codes STATUS.ERR can hold (60_exceptions.md R164). -/
inductive Err where
  | ok
  | noSlot
  | badTable
  | illegal
  | badSlot
  | state
  | kind
  | tabFull
  | tickRun
  | badField
  | badArg
  deriving DecidableEq, Repr

/-- PENDING, the one blocking command in progress (R50). -/
inductive Pending where
  | none
  | delay (start n : Word)
  | delayUntil (target : Word)
  deriving DecidableEq, Repr

/-- What the block sends to the GPIO port (R47). -/
inductive GpioRequest where
  | write (pin : PinId) (level : Bool)
  | toggle (pin : PinId)
  deriving DecidableEq, Repr

/-- A host access of `bytes` bytes at byte offset `off` from BASE, admitted or not (20_memory.md R62, R64). -/
inductive Access where
  | read (off bytes : Nat)
  | write (off bytes : Nat) (value : Word)
  deriving DecidableEq, Repr

/-- What can come from outside, one step each (60_exceptions.md R180). -/
inductive Input where
  | host (access : Access)
  | tick
  | pin (pin : PinId) (level : Bool)
  | reset
  deriving DecidableEq, Repr

/-- What exists only inside one FIRE: its slot, its tick sample, its pin sample (R51, 41_engine.md R97) and the truth
value of the guard evaluated last. The model's own field (log entry 4). -/
structure Engine where
  slot : Fin Config.nslot
  tick : Word
  level : Bool
  verdict : Bool
  deriving DecidableEq, Repr

/-- No FIRE in progress: what the engine holds before and after every step. -/
def Engine.idle : Engine := ⟨0, 0#32, false, false⟩

/-- One instance slot (10_state.md section 4). -/
structure Slot where
  sstat : SlotStatus
  kind : Kind
  curState : Nibble
  nent : BitVec 5
  param : Word
  t0 : Word
  nextTimeout : Word
  duration : Word
  pin : PinId
  table : Vector Entry Config.maxEntries
  deriving DecidableEq, Repr

/-- A FREE slot: every field and every table entry 0 (R55, R57). -/
def Slot.free : Slot :=
  { sstat := .free, kind := .generic, curState := 0#4, nent := 0#5, param := 0#32, t0 := 0#32,
    nextTimeout := 0#32, duration := 0#32, pin := 0#8, table := Vector.replicate Config.maxEntries 0#16 }

/-- The block's architectural state, exactly what 10_state.md lists (00_scope.md R24).
STATUS.BUSY is the view `pending ≠ none` (R50); ID, CONFIG and CMD hold no state (R27, R32, R33). -/
structure Block where
  /-- TICK (R25) -/
  tick : Word
  /-- CTRL.TICK_EN (R26) -/
  tickEn : Bool
  /-- STATUS.ERR (R28, R29) -/
  err : Err
  /-- ARG0 (R30) -/
  arg0 : Word
  /-- ARG1 (R30) -/
  arg1 : Word
  /-- RESULT (R31) -/
  result : Word
  /-- the instance slots (R37) with their tables (R42) -/
  slots : Vector Slot Config.nslot
  /-- PENDING (R50) -/
  pending : Pending
  deriving DecidableEq, Repr

/-- The block at reset (R57). -/
def Block.reset : Block :=
  { tick := 0#32, tickEn := false, err := .ok, arg0 := 0#32, arg1 := 0#32, result := 0#32,
    slots := Vector.replicate Config.nslot Slot.free, pending := .none }

/-- What the block does not hold: the output-request list, which belongs to the environment (00_scope.md R20, R24), and
the part of the host and of the environment, the agents beside the block (R17), whose choices a model may not fix (R22).
The block reads nothing of it but the level a FIRE samples (10_state.md R46). -/
structure Environment where
  /-- the GPIO requests sent, oldest first (00_scope.md R20, R24) -/
  gpioOut : List GpioRequest
  /-- the values the host has read, oldest first (00_scope.md R20; log entry 3) -/
  reads : List Word
  /-- bit `p` is the level the environment holds on pin `p` (R46; log entry 2) -/
  pins : BitVec 256
  /-- the host's command list (00_scope.md R21) with what else comes from outside, in the order it comes (R18, R22; log
  entry 1) -/
  inputs : List Input
  deriving DecidableEq, Repr

/-- Nothing sent, nothing read, every level 0, nothing to come (log entries 1 to 3). -/
def Environment.initial : Environment := { gpioOut := [], reads := [], pins := 0#256, inputs := [] }

/-- The machine: the block's state, which is all the block holds between steps (00_scope.md R24), and its environment,
which one step, a function of one state, has to find there (log entry 21). The samples of a FIRE stand beside them since
guards and actions are instructions; every step starts and ends with the engine idle, so they carry nothing (R51). -/
structure State extends Block, Environment where
  /-- the FIRE in progress within a step (log entry 4) -/
  engine : Engine
  deriving DecidableEq, Repr

/-- How a step can stop. -/
inductive Fault where
  /-- Raised by a host access the window does not admit: not 32 bits wide, misaligned, or at or past 0x100
  (20_memory.md R64, 60_exceptions.md R167). Safe: the access is not performed and the block changes no state. -/
  | busError (off bytes : Nat)
  /-- Raised when a delay is pending, the tick agent is disabled and no input other than a host access is left
  (44_timebase.md R158). Safe: no agent has a step there, and only a platform reset could go on. -/
  | stuck
  deriving DecidableEq, Repr

/-- Why a step has no meaning. -/
inductive Refusal where
  /-- Raised by the arm of an instruction that has no meaning yet; none is left. Safe: the machine stops. -/
  | notModelled (mnemonic : String)
  deriving DecidableEq, Repr

/-- The machine right after reset (10_state.md R57); the environment's fields are as log entries 1 to 3 say. -/
def State.reset : State :=
  { toBlock := Block.reset, toEnvironment := Environment.initial, engine := Engine.idle }

end Sys2Proof.Machine
end

