-- ==== Sys2Proof/Machine/Ops.lean ====
section
/-! DEFINITION. The named operations over the registers, the slots and their tables, and how a command is refused. -/

namespace Sys2Proof.Machine

/-! ### Codes the host reads -/

/-- SSTAT's code (R38). -/
def SlotStatus.code : SlotStatus → BitVec 2
  | .free => 0
  | .config => 1
  | .active => 2

/-- KIND's code (R39). -/
def Kind.code : Kind → BitVec 2
  | .generic => 0
  | .button => 1
  | .blink => 2

/-- STATUS.ERR's code (60_exceptions.md R164). -/
def Err.code : Err → Byte
  | .ok => 0x00
  | .noSlot => 0x01
  | .badTable => 0x02
  | .illegal => 0x03
  | .badSlot => 0x04
  | .state => 0x05
  | .kind => 0x06
  | .tabFull => 0x07
  | .tickRun => 0x08
  | .badField => 0x09
  | .badArg => 0x0A

/-! ### How a command ends -/

/-- `raise E_X`: the command stops and only STATUS.ERR is written (60_exceptions.md R163).
The block has no trap: nothing is saved, no control is transferred and nothing has to be restored (R168, R169). -/
def State.raise (e : Err) (s : State) : State := { s with err := e }

/-- A command that succeeds writes OK (10_state.md R29). -/
def State.ok (s : State) : State := { s with err := .ok }

/-- RESULT <- v (10_state.md R31). -/
def State.setResult (v : Word) (s : State) : State := { s with result := v }

/-! ### Slots and tables -/

/-- `slot[k]`. -/
def State.slot (s : State) (k : Fin Config.nslot) : Slot := s.slots.get k

/-- `slot[k] <- x`. -/
def State.setSlot (k : Fin Config.nslot) (x : Slot) (s : State) : State := { s with slots := s.slots.set k x }

/-- `clear(s)` (41_engine.md R94): the slot becomes FREE with every field and entry 0, and no GPIO request is sent. -/
def State.clearSlot (k : Fin Config.nslot) (s : State) : State := s.setSlot k Slot.free

/-- The slot indexes, least first. -/
def slotIndices : List (Fin Config.nslot) := [0, 1, 2, 3]

/-- The least FREE slot, if any (41_engine.md R110). -/
def State.firstFree (s : State) : Option (Fin Config.nslot) :=
  slotIndices.find? (fun k => decide ((s.slot k).sstat = .free))

/-- `TABLE[s][i]`. -/
def Slot.entry (x : Slot) (i : Nat) : Entry := x.table.toList.getD i 0#16

/-- The valid entries in table order: index 0 to NENT - 1 (10_state.md R41). -/
def Slot.entries (x : Slot) : List Entry := x.table.toList.take x.nent.toNat

/-- `TABLE[s][NENT] <- e; NENT <- NENT + 1` (41_engine.md R111). -/
def Slot.append (e : Entry) (x : Slot) : Slot :=
  { x with table := x.table.setIfInBounds x.nent.toNat e, nent := x.nent + 1#5 }

/-- `TABLE[s][i ..] <- es`. -/
def loadFrom : Nat → List Entry → Vector Entry Config.maxEntries → Vector Entry Config.maxEntries
  | _, [], t => t
  | i, e :: es, t => loadFrom (i + 1) es (t.setIfInBounds i e)

/-- A preset table and its count (42_button.md R126, 43_blink.md R141). -/
def Slot.load (es : List Entry) (x : Slot) : Slot :=
  { x with table := loadFrom 0 es x.table, nent := BitVec.ofNat 5 es.length }

/-- The canonical form of one slot's table memory: at most 16 valid entries, and 0 past them (10_state.md R41). -/
def Slot.tableWf (x : Slot) : Bool :=
  decide (x.nent.toNat ≤ Config.maxEntries) && (x.table.toList.drop x.nent.toNat).all (fun e => decide (e = 0#16))

/-- The canonical form of the table memory. -/
def Memory.wf (s : State) : Bool := slotIndices.all (fun k => (s.slot k).tableWf)

/-! ### GPIO port -/

/-- One more output request, after those already sent (10_state.md R47). -/
def State.sendGpio (r : GpioRequest) (s : State) : State := { s with gpioOut := s.gpioOut ++ [r] }

/-- `GpioRead(p)`: the environment's level of pin `p` (10_state.md R46). -/
def State.gpioRead (s : State) (p : PinId) : Bool := s.pins.getLsbD p.toNat

/-- The environment's level of pin `p` becomes `b`. -/
def State.setPin (p : PinId) (b : Bool) (s : State) : State :=
  { s with pins := if b then s.pins ||| (1#256 <<< p.toNat) else s.pins &&& ~~~(1#256 <<< p.toNat) }

/-! ### The engine's samples -/

/-- The start of a FIRE of slot `k`: one sample of TICK and one of the slot's pin (41_engine.md R97). -/
def State.beginFire (k : Fin Config.nslot) (s : State) : State :=
  { s with engine := { slot := k, tick := s.tick, level := s.gpioRead (s.slot k).pin, verdict := false } }

/-- The end of a FIRE: the samples are gone (10_state.md R51). -/
def State.endFire (s : State) : State := { s with engine := Engine.idle }

/-- The slot the engine works on. -/
def State.fired (s : State) : Slot := s.slot s.engine.slot

/-- The engine's slot becomes `x`. -/
def State.setFired (x : Slot) (s : State) : State := s.setSlot s.engine.slot x

/-- The truth value of a guard (41_engine.md R105: nothing else changes). -/
def State.setVerdict (b : Bool) (s : State) : State := { s with engine := { s.engine with verdict := b } }

/-- `slot[s].CUR_STATE <- TGT` of the accepted entry (41_engine.md R102). -/
def State.setCurState (tgt : Nibble) (s : State) : State := s.setFired { s.fired with curState := tgt }

/-! ### Registers as the host reads them -/

/-- STATUS.BUSY: a delay is pending (10_state.md R28, R50). -/
def State.busy (s : State) : Bool := decide (s.pending ≠ .none)

/-- CTRL as read: bit 0 is TICK_EN, the rest 0 (10_state.md R26). -/
def State.ctrl (s : State) : Word := if s.tickEn then 1#32 else 0#32

/-- STATUS as read: BUSY at bit 8, ERR at 7:0, the rest 0 (10_state.md R28). -/
def State.status (s : State) : Word := (if s.busy then 0x100#32 else 0#32) ||| s.err.code.setWidth 32

/-- Reset: every piece of the block's state takes its reset value in one step and no GPIO request is sent
(70_reset_and_hazards.md R181); what belongs to the environment stays (log entry 13). -/
def State.resetBlock (s : State) : State :=
  { s with toBlock := Block.reset, engine := Engine.idle }

end Sys2Proof.Machine
end

