-- ==== Sys2Proof/Machine/Flags.lean ====
section
/-! DEFINITION. The comparisons guards and delays test. The block has no condition codes (10_state.md R36). -/

namespace Sys2Proof.Machine

/-- `DEADLINE_REACHED(now, deadline)`: the difference modulo 2^W has its sign bit clear (44_timebase.md R149).
PRESUMED (log entry 12): the sign bit is the top bit, as 00_scope.md R13 says from general knowledge. -/
def deadlineReached (now deadline : Word) : Bool := !(now - deadline).msb

/-- `ELAPSED_AT_LEAST(now, start, n)`: the elapsed count modulo 2^W is at least `n` as unsigned numbers
(44_timebase.md R150). -/
def elapsedAtLeast (now start n : Word) : Bool := decide (n.toNat ≤ (now - start).toNat)

/-- `a >>u 1`, the floor of half a period (00_scope.md R12, 43_blink.md R143). -/
def halfOf (period : Word) : Word := period >>> 1

end Sys2Proof.Machine
end

