-- ==== Sys2Proof/Machine/Operands.lean ====
section
/-! DEFINITION. The operand forms of a command (30_encoding.md R84, R85, R90) and the checks they come with. -/

namespace Sys2Proof.Machine

/-- `s < NSLOT`, else E_BADSLOT (R84). -/
def slotInRange (n : Nat) : Except Err (Fin Config.nslot) :=
  if h : n < Config.nslot then .ok ⟨n, h⟩ else .error .badSlot

/-- A live slot: E_BADSLOT if the index is out of range or the slot is FREE (60_exceptions.md R164). -/
def State.liveSlot (s : State) (n : Nat) : Except Err (Fin Config.nslot) :=
  match slotInRange n with
  | .error e => .error e
  | .ok k => if (s.slot k).sstat = .free then .error .badSlot else .ok k

/-- A slot under construction: E_BADSLOT, then E_STATE if it is ACTIVE (41_engine.md R111, R112, R114). -/
def State.configSlot (s : State) (n : Nat) : Except Err (Fin Config.nslot) :=
  match s.liveSlot n with
  | .error e => .error e
  | .ok k => if (s.slot k).sstat = .active then .error .state else .ok k

/-- A slot FIRE runs on: E_BADSLOT, then E_STATE if it is CONFIG (41_engine.md R96). -/
def State.activeSlot (s : State) (n : Nat) : Except Err (Fin Config.nslot) :=
  match s.liveSlot n with
  | .error e => .error e
  | .ok k => if (s.slot k).sstat = .config then .error .state else .ok k

/-- A slot the button accessors take: E_BADSLOT, then E_KIND (42_button.md R134). -/
def State.buttonSlot (s : State) (n : Nat) : Except Err (Fin Config.nslot) :=
  match s.liveSlot n with
  | .error e => .error e
  | .ok k => if (s.slot k).kind = .button then .ok k else .error .kind

/-- Bits 31 down to `n` of an argument register are 0 (R84; else E_BADARG). -/
def fitsIn (n : Nat) (v : Word) : Bool := decide (v >>> n = 0#32)

/-- A pin id operand, `ARGk[PIN_BITS-1:0]` (R84). -/
def pinOperand (v : Word) : PinId := v.setWidth 8

/-- A table entry operand, `ARG0[15:0]` (R84). -/
def entryOf (v : Word) : Entry := v.setWidth 16

/-- An initial state operand, `ARG0[3:0]` (R84). -/
def stateOperand (v : Word) : Nibble := v.setWidth 4

/-- A slot index as RESULT holds it (R85). -/
def slotResult (k : Fin Config.nslot) : Word := BitVec.ofNat 32 k.val

/-- A boolean as RESULT holds it (R85). -/
def boolResult (b : Bool) : Word := if b then 1#32 else 0#32

/-- Field `f` of a slot as RDFLD reads it (R90); fields past 0x08 are refused before this is read. -/
def Slot.field (f : Nat) (x : Slot) : Word :=
  match f with
  | 0x00 => x.param
  | 0x01 => x.t0
  | 0x02 => x.nextTimeout
  | 0x03 => x.duration
  | 0x04 => x.pin.setWidth 32
  | 0x05 => x.kind.code.setWidth 32
  | 0x06 => x.curState.setWidth 32
  | 0x07 => x.nent.setWidth 32
  | 0x08 => x.sstat.code.setWidth 32
  | _ => 0#32

/-- Field `f` of a slot as WRFLD writes it (41_engine.md R112); fields past 0x04 are refused before this is used. -/
def Slot.setField (f : Nat) (v : Word) (x : Slot) : Slot :=
  match f with
  | 0x00 => { x with param := v }
  | 0x01 => { x with t0 := v }
  | 0x02 => { x with nextTimeout := v }
  | 0x03 => { x with duration := v }
  | 0x04 => { x with pin := pinOperand v }
  | _ => x

end Sys2Proof.Machine
end

