-- ==== Sys2Proof/Machine/Actions.lean ====
section
/-! DEFINITION. The four actions (30_encoding.md R88). An action reads the fields of the slot being fired as they are when
it starts, and writes only fields of that slot and, for A_TOGGLE, one GPIO request (41_engine.md R101).
CUR_STATE is updated by FIRE after the action (R102; log entry 5). -/

namespace Sys2Proof.Machine

/-- A_NONE: nothing (41_engine.md R109). -/
def actionNone (s : State) : State := s

/-- A_PRESS_START: `T0 <- t; NEXT_TIMEOUT <- t + PARAM` (42_button.md R131). -/
def actionPressStart (s : State) : State :=
  s.setFired { s.fired with t0 := s.engine.tick, nextTimeout := s.engine.tick + s.fired.param }

/-- A_RELEASE_START: `DURATION <- t - T0; NEXT_TIMEOUT <- t + PARAM` (42_button.md R132). -/
def actionReleaseStart (s : State) : State :=
  s.setFired { s.fired with duration := s.engine.tick - s.fired.t0, nextTimeout := s.engine.tick + s.fired.param }

/-- A_TOGGLE: `GpioToggle(PIN); T0 <- t` (43_blink.md R144). -/
def actionToggle (s : State) : State :=
  (s.sendGpio (.toggle s.fired.pin)).setFired { s.fired with t0 := s.engine.tick }

/-- `Action(a, s, t)` (41_engine.md R95): a reserved code does nothing, for totality only. -/
def runAction (a : Nibble) (s : State) : State :=
  match a.toNat with
  | 0x0 => actionNone s
  | 0x1 => actionPressStart s
  | 0x2 => actionReleaseStart s
  | 0x3 => actionToggle s
  | _ => s

/-- A_NONE (R109). -/
def execANone (_src _tgt _guard : Nibble) (s : State) : Host.Outcome State Fault Refusal := .next (actionNone s)

/-- A_PRESS_START (R131). -/
def execAPressStart (_src _tgt _guard : Nibble) (s : State) : Host.Outcome State Fault Refusal :=
  .next (actionPressStart s)

/-- A_RELEASE_START (R132). -/
def execAReleaseStart (_src _tgt _guard : Nibble) (s : State) : Host.Outcome State Fault Refusal :=
  .next (actionReleaseStart s)

/-- A_TOGGLE (R144). -/
def execAToggle (_src _tgt _guard : Nibble) (s : State) : Host.Outcome State Fault Refusal := .next (actionToggle s)

end Sys2Proof.Machine
end

