-- ==== Sys2Proof/Machine/Guards.lean ====
section
/-! DEFINITION. The six guards (30_encoding.md R87). A guard reads the samples of the FIRE in progress and its slot,
and changes nothing but the engine's verdict (41_engine.md R105). SRC, TGT and ACTION of its entry are FIRE's to use
(R98, R101, R102; log entry 5). -/

namespace Sys2Proof.Machine

/-- G_FALSE: never (41_engine.md R107). -/
def guardFalse (s : State) : State := s.setVerdict false

/-- G_TRUE: always (41_engine.md R108). -/
def guardTrue (s : State) : State := s.setVerdict true

/-- G_PIN_PRESSED: the pin sample is true (42_button.md R128). -/
def guardPinPressed (s : State) : State := s.setVerdict s.engine.level

/-- G_PIN_RELEASED: the pin sample is false (42_button.md R129). -/
def guardPinReleased (s : State) : State := s.setVerdict (!s.engine.level)

/-- G_TIMEOUT: the tick sample has reached NEXT_TIMEOUT (42_button.md R130). -/
def guardTimeout (s : State) : State := s.setVerdict (deadlineReached s.engine.tick s.fired.nextTimeout)

/-- G_HALF_PERIOD: half a period has elapsed since T0 (43_blink.md R143). -/
def guardHalfPeriod (s : State) : State :=
  s.setVerdict (elapsedAtLeast s.engine.tick s.fired.t0 (halfOf s.fired.param))

/-- `Guard(g, s, t, lvl)` (41_engine.md R95): a reserved code is false, for totality only. -/
def runGuard (g : Nibble) (s : State) : State :=
  match g.toNat with
  | 0x0 => guardFalse s
  | 0x1 => guardTrue s
  | 0x2 => guardPinPressed s
  | 0x3 => guardPinReleased s
  | 0x4 => guardTimeout s
  | 0x5 => guardHalfPeriod s
  | _ => s.setVerdict false

/-- G_FALSE (R107). -/
def execGFalse (_src _tgt _action : Nibble) (s : State) : Host.Outcome State Fault Refusal := .next (guardFalse s)

/-- G_TRUE (R108). -/
def execGTrue (_src _tgt _action : Nibble) (s : State) : Host.Outcome State Fault Refusal := .next (guardTrue s)

/-- G_PIN_PRESSED (R128). -/
def execGPinPressed (_src _tgt _action : Nibble) (s : State) : Host.Outcome State Fault Refusal :=
  .next (guardPinPressed s)

/-- G_PIN_RELEASED (R129). -/
def execGPinReleased (_src _tgt _action : Nibble) (s : State) : Host.Outcome State Fault Refusal :=
  .next (guardPinReleased s)

/-- G_TIMEOUT (R130). -/
def execGTimeout (_src _tgt _action : Nibble) (s : State) : Host.Outcome State Fault Refusal := .next (guardTimeout s)

/-- G_HALF_PERIOD (R143). -/
def execGHalfPeriod (_src _tgt _action : Nibble) (s : State) : Host.Outcome State Fault Refusal :=
  .next (guardHalfPeriod s)

end Sys2Proof.Machine
end

