-- ==== Sys2Proof/Machine/Fsm.lean ====
section
/-! DEFINITION. The FSM engine: FIRE, registering a table, destroying a slot, the debug reads and NOP (41_engine.md). -/

namespace Sys2Proof.Machine

/-! ### FIRE -/

/-- The scan of a table in order (R98, R99): entries of another source state are skipped without evaluating their
guards, and the first true guard's entry runs its action (R101) and then sets CUR_STATE (R102), once (R103). -/
def scanTable (cur : Nibble) : List Entry → State → State
  | [], s => s
  | e :: es, s =>
    if entrySrc e = cur then
      if (runGuard (entryGuard e) s).engine.verdict then
        (runAction (entryAction e) (runGuard (entryGuard e) s)).setCurState (entryTgt e)
      else scanTable cur es (runGuard (entryGuard e) s)
    else scanTable cur es s

/-- One FIRE of an ACTIVE slot (R95): the samples, the scan, and ERR <- OK whether or not a transition was taken. -/
def State.fireSlot (k : Fin Config.nslot) (s : State) : State :=
  (scanTable (s.slot k).curState (s.slot k).entries (s.beginFire k)).endFire.ok

/-- FIRE (R95, R96). -/
def execFire (slot : Nat) (s : State) : Host.Outcome State Fault Refusal :=
  match s.activeSlot slot with
  | .error e => .next (s.raise e)
  | .ok k => .next (s.fireSlot k)

/-! ### Registering a table -/

/-- ALLOC (R110). -/
def execAlloc (s : State) : Host.Outcome State Fault Refusal :=
  match s.firstFree with
  | none => .next (s.raise .noSlot)
  | some k =>
    .next ((s.setSlot k { Slot.free with sstat := .config, kind := .generic }).setResult (slotResult k)).ok

/-- WRTAB (R111). -/
def execWrtab (slot : Nat) (s : State) : Host.Outcome State Fault Refusal :=
  match s.configSlot slot with
  | .error e => .next (s.raise e)
  | .ok k =>
    if fitsIn 16 s.arg0 = false then .next (s.raise .badArg)
    else if (s.slot k).nent.toNat = Config.maxEntries then .next (s.raise .tabFull)
    else .next ((s.setSlot k ((s.slot k).append (entryOf s.arg0))).setResult ((s.slot k).nent.setWidth 32)).ok

/-- WRFLD (R112). -/
def execWrfld (slot fld : Nat) (s : State) : Host.Outcome State Fault Refusal :=
  match s.configSlot slot with
  | .error e => .next (s.raise e)
  | .ok k =>
    if 0x04 < fld then .next (s.raise .badField)
    else if fld = 0x04 ∧ fitsIn Config.pinBits s.arg0 = false then .next (s.raise .badArg)
    else .next (s.setSlot k ((s.slot k).setField fld s.arg0)).ok

/-- Why a table fails validation (R113). -/
inductive Reason where
  | empty
  | badGuard
  | badAction
  | deadTarget
  | badInitial
  deriving DecidableEq, Repr

/-- The reason's code (R113). -/
def Reason.code : Reason → Byte
  | .empty => 1
  | .badGuard => 2
  | .badAction => 3
  | .deadTarget => 4
  | .badInitial => 5

/-- Some entry has source state `st`. -/
def isSource (es : List Entry) (st : Nibble) : Bool := es.any (fun e => decide (entrySrc e = st))

/-- The first failure of one entry: guard, then action, then target (R113). -/
def entryFailure (es : List Entry) (e : Entry) : Option Reason :=
  if 0x5 < (entryGuard e).toNat then some .badGuard
  else if 0x3 < (entryAction e).toNat then some .badAction
  else if isSource es (entryTgt e) = false then some .deadTarget
  else none

/-- The first failing entry from index `i` on, in index order (R113). -/
def firstFailure (all : List Entry) : Nat → List Entry → Option (Reason × Nat)
  | _, [] => none
  | i, e :: es =>
    match entryFailure all e with
    | some r => some (r, i)
    | none => firstFailure all (i + 1) es

/-- `validate(s, init)`: none is OK (R113). -/
def validate (es : List Entry) (init : Nibble) : Option (Reason × Nat) :=
  if es = [] then some (.empty, 0)
  else
    match firstFailure es 0 es with
    | some r => some r
    | none => if isSource es init then none else some (.badInitial, 0)

/-- `zext_32(index << 8 | reason)` (30_encoding.md R85). -/
def failureResult (r : Reason) (index : Nat) : Word := (BitVec.ofNat 32 index <<< 8) ||| r.code.setWidth 32

/-- COMMIT (R114, R115, R116). -/
def execCommit (slot : Nat) (s : State) : Host.Outcome State Fault Refusal :=
  match s.configSlot slot with
  | .error e => .next (s.raise e)
  | .ok k =>
    if fitsIn 4 s.arg0 = false then .next (s.raise .badArg)
    else
      match validate (s.slot k).entries (stateOperand s.arg0) with
      | some (r, i) => .next (((s.clearSlot k).setResult (failureResult r i)).raise .badTable)
      | none => .next (s.setSlot k { s.slot k with curState := stateOperand s.arg0, sstat := .active }).ok

/-- DESTROY (R117). -/
def execDestroy (slot : Nat) (s : State) : Host.Outcome State Fault Refusal :=
  match s.liveSlot slot with
  | .error e => .next (s.raise e)
  | .ok k => .next (s.clearSlot k).ok

/-! ### Debug reads -/

/-- RDSTATE (R118). -/
def execRdstate (slot : Nat) (s : State) : Host.Outcome State Fault Refusal :=
  match slotInRange slot with
  | .error e => .next (s.raise e)
  | .ok k => .next (s.setResult ((s.slot k).curState.setWidth 32)).ok

/-- RDFLD (R119). -/
def execRdfld (slot fld : Nat) (s : State) : Host.Outcome State Fault Refusal :=
  match slotInRange slot with
  | .error e => .next (s.raise e)
  | .ok k =>
    if 0x08 < fld then .next (s.raise .badField)
    else .next (s.setResult ((s.slot k).field fld)).ok

/-- RDTAB (R120). -/
def execRdtab (slot idx : Nat) (s : State) : Host.Outcome State Fault Refusal :=
  match slotInRange slot with
  | .error e => .next (s.raise e)
  | .ok k =>
    if (s.slot k).nent.toNat ≤ idx then .next (s.raise .badField)
    else .next (s.setResult (((s.slot k).entry idx).setWidth 32)).ok

/-- NOP (R121). -/
def execNop (s : State) : Host.Outcome State Fault Refusal := .next s.ok

end Sys2Proof.Machine
end

