-- ==== Sys2Proof/Machine/Blink.lean ====
section
/-! DEFINITION. The blink machine: its preset table and NEW_BLINK (43_blink.md). -/

namespace Sys2Proof.Machine

/-- The preset table in its order (R140). -/
def blinkTable : List Entry := [0x0153#16, 0x1053#16]

/-- The slot NEW_BLINK builds in place of a cleared one (R141): OFF, with T0 the construction tick. -/
def blinkSlotOf (period : Word) (pin : PinId) (t : Word) : Slot :=
  { Slot.free.load blinkTable with
    kind := .blink, param := period, pin := pin, t0 := t, curState := 0#4, sstat := .active }

/-- NEW_BLINK (R141): the pin is driven low, which agrees with OFF. -/
def execNewBlink (s : State) : Host.Outcome State Fault Refusal :=
  if fitsIn Config.pinBits s.arg1 = false then .next (s.raise .badArg)
  else
    match s.firstFree with
    | none => .next (s.raise .noSlot)
    | some k =>
      .next (((s.setSlot k (blinkSlotOf s.arg0 (pinOperand s.arg1) s.tick)).sendGpio
        (.write (pinOperand s.arg1) false)).setResult (slotResult k)).ok

end Sys2Proof.Machine
end

