-- ==== Sys2Proof/Machine/Button.lean ====
section
/-! DEFINITION. The button debounce machine: its preset table, NEW_BUTTON and the accessors (42_button.md). -/

namespace Sys2Proof.Machine

/-- The preset table in its order (R123). -/
def buttonTable : List Entry := [0x0121#16, 0x1030#16, 0x1240#16, 0x2332#16, 0x3220#16, 0x3040#16]

/-- The slot NEW_BUTTON builds in place of a cleared one (R126): RELEASED, with the fields never written 0. -/
def buttonSlotOf (debounce : Word) (pin : PinId) : Slot :=
  { Slot.free.load buttonTable with
    kind := .button, param := debounce, pin := pin, curState := 0#4, sstat := .active }

/-- NEW_BUTTON (R126). -/
def execNewButton (s : State) : Host.Outcome State Fault Refusal :=
  if fitsIn Config.pinBits s.arg1 = false then .next (s.raise .badArg)
  else
    match s.firstFree with
    | none => .next (s.raise .noSlot)
    | some k =>
      .next ((s.setSlot k (buttonSlotOf s.arg0 (pinOperand s.arg1))).setResult (slotResult k)).ok

/-- GET_DURATION (R135). -/
def execGetDuration (slot : Nat) (s : State) : Host.Outcome State Fault Refusal :=
  match s.buttonSlot slot with
  | .error e => .next (s.raise e)
  | .ok k => .next (s.setResult (s.slot k).duration).ok

/-- RESET_DURATION (R136). -/
def execResetDuration (slot : Nat) (s : State) : Host.Outcome State Fault Refusal :=
  match s.buttonSlot slot with
  | .error e => .next (s.raise e)
  | .ok k => .next (s.setSlot k { s.slot k with duration := 0#32 }).ok

/-- CHECK_ACTIVITY (R137): CUR_STATE is PRESSED (2) or PRESSED_WAIT (3). -/
def execCheckActivity (slot : Nat) (s : State) : Host.Outcome State Fault Refusal :=
  match s.buttonSlot slot with
  | .error e => .next (s.raise e)
  | .ok k =>
    .next (s.setResult (boolResult (decide ((s.slot k).curState = 2#4 ∨ (s.slot k).curState = 3#4)))).ok

end Sys2Proof.Machine
end

