-- ==== Sys2Proof/Machine/Timebase.lean ====
section
/-! DEFINITION. The timebase: the tick agent's step, NOW, the delays and the test hooks (44_timebase.md). -/

namespace Sys2Proof.Machine

/-- `complete_delay()` (R155). -/
def State.completeDelay (s : State) : State := { s with pending := .none, err := .ok }

/-- `complete_delay_until()` (R157): ARG0 and RESULT take the tick at return. -/
def State.completeDelayUntil (s : State) : State :=
  { s with arg0 := s.tick, result := s.tick, pending := .none, err := .ok }

/-- A pending delay whose condition holds at the current TICK completes (R146). -/
def State.completePending (s : State) : State :=
  match s.pending with
  | .none => s
  | .delay start n => if elapsedAtLeast s.tick start n then s.completeDelay else s
  | .delayUntil target => if deadlineReached s.tick target then s.completeDelayUntil else s

/-- TICK_STEP (R146): TICK goes up by one modulo 2^W, then a pending delay may complete. -/
def State.tickStep (s : State) : State := { s with tick := s.tick + 1#32 }.completePending

/-- A tick event: one step of the tick agent while TICK_EN = 1, lost otherwise (10_state.md R48, 60_exceptions.md R171). -/
def State.tickEvent (s : State) : State := if s.tickEn then s.tickStep else s

/-- NOW (R152). -/
def execNow (s : State) : Host.Outcome State Fault Refusal := .next (s.setResult s.tick).ok

/-- DELAY, its issue step (R154). -/
def execDelay (s : State) : Host.Outcome State Fault Refusal :=
  if elapsedAtLeast s.tick s.tick s.arg0 then .next s.ok
  else .next { s with pending := .delay s.tick s.arg0 }

/-- DELAY_UNTIL, its issue step (R156). -/
def execDelayUntil (s : State) : Host.Outcome State Fault Refusal :=
  if deadlineReached s.tick (s.arg0 + s.arg1) then .next { s with arg0 := s.tick, result := s.tick, err := .ok }
  else .next { s with pending := .delayUntil (s.arg0 + s.arg1) }

/-- TICKSET (R159). -/
def execTickset (s : State) : Host.Outcome State Fault Refusal :=
  if s.tickEn then .next (s.raise .tickRun) else .next { s with tick := s.arg0, err := .ok }

/-- TICKSTEP (R160). -/
def execTickstep (s : State) : Host.Outcome State Fault Refusal :=
  if s.tickEn then .next (s.raise .tickRun) else .next { s with tick := s.tick + s.arg0, err := .ok }

end Sys2Proof.Machine
end

