-- ==== Sys2Proof/Machine/Dispatch.lean ====
section
/-! DEFINITION. One arm per constructor of Instr, each one direct call of its meaning. -/

namespace Sys2Proof.Machine

def exec (i : Instr) (s : State) : Host.Outcome State Fault Refusal :=
  match i with
  | .nop => Sys2Proof.Machine.execNop s
  | .now => Sys2Proof.Machine.execNow s
  | .delay => Sys2Proof.Machine.execDelay s
  | .delayUntil => Sys2Proof.Machine.execDelayUntil s
  | .tickset => Sys2Proof.Machine.execTickset s
  | .tickstep => Sys2Proof.Machine.execTickstep s
  | .alloc => Sys2Proof.Machine.execAlloc s
  | .wrtab slot => Sys2Proof.Machine.execWrtab slot s
  | .wrfld slot fld => Sys2Proof.Machine.execWrfld slot fld s
  | .commit slot => Sys2Proof.Machine.execCommit slot s
  | .newButton => Sys2Proof.Machine.execNewButton s
  | .newBlink => Sys2Proof.Machine.execNewBlink s
  | .destroy slot => Sys2Proof.Machine.execDestroy slot s
  | .fire slot => Sys2Proof.Machine.execFire slot s
  | .rdstate slot => Sys2Proof.Machine.execRdstate slot s
  | .rdfld slot fld => Sys2Proof.Machine.execRdfld slot fld s
  | .rdtab slot idx => Sys2Proof.Machine.execRdtab slot idx s
  | .getDuration slot => Sys2Proof.Machine.execGetDuration slot s
  | .resetDuration slot => Sys2Proof.Machine.execResetDuration slot s
  | .checkActivity slot => Sys2Proof.Machine.execCheckActivity slot s
  | .gFalse src tgt action => Sys2Proof.Machine.execGFalse src tgt action s
  | .gTrue src tgt action => Sys2Proof.Machine.execGTrue src tgt action s
  | .gPinPressed src tgt action => Sys2Proof.Machine.execGPinPressed src tgt action s
  | .gPinReleased src tgt action => Sys2Proof.Machine.execGPinReleased src tgt action s
  | .gTimeout src tgt action => Sys2Proof.Machine.execGTimeout src tgt action s
  | .gHalfPeriod src tgt action => Sys2Proof.Machine.execGHalfPeriod src tgt action s
  | .aNone src tgt guard => Sys2Proof.Machine.execANone src tgt guard s
  | .aPressStart src tgt guard => Sys2Proof.Machine.execAPressStart src tgt guard s
  | .aReleaseStart src tgt guard => Sys2Proof.Machine.execAReleaseStart src tgt guard s
  | .aToggle src tgt guard => Sys2Proof.Machine.execAToggle src tgt guard s

end Sys2Proof.Machine
end

