-- ==== Sys2Proof/Machine/Agents.lean ====
section
/-! DEFINITION. The register window and what each agent's step does (20_memory.md, 00_scope.md section 6). -/

namespace Sys2Proof.Machine

/-! ### The register window -/

/-- The registers of the window (20_memory.md R60). -/
inductive Reg where
  | id
  | ctrl
  | status
  | tick
  | arg0
  | arg1
  | result
  | cmd
  | config
  | reserved
  deriving DecidableEq, Repr

/-- The register at an admitted offset (R60). -/
def regAt (off : Nat) : Reg :=
  if off = 0x00 then .id
  else if off = 0x04 then .ctrl
  else if off = 0x08 then .status
  else if off = 0x0C then .tick
  else if off = 0x10 then .arg0
  else if off = 0x14 then .arg1
  else if off = 0x18 then .result
  else if off = 0x1C then .cmd
  else if off = 0x20 then .config
  else .reserved

/-- Only aligned 32-bit accesses below 0x100 are admitted (R64). -/
def admitted (off bytes : Nat) : Bool := decide (bytes = 4 ∧ off % 4 = 0 ∧ off < 0x100)

/-- `MemRead` of an admitted offset (R62): it changes no state. -/
def State.memRead (s : State) (off : Nat) : Word :=
  match regAt off with
  | .id => Config.idValue
  | .ctrl => s.ctrl
  | .status => s.status
  | .tick => s.tick
  | .arg0 => s.arg0
  | .arg1 => s.arg1
  | .result => s.result
  | .cmd => 0#32
  | .config => Config.configValue
  | .reserved => 0#32

/-- `issue(c)` (41_engine.md R93): an illegal word writes E_ILLEGAL and changes nothing else. -/
def issue (c : Word) (s : State) : Host.Outcome State Fault Refusal :=
  match decode .cmd32 c with
  | .illegal _ => .next (s.raise .illegal)
  | .instr i => exec i s

/-- `MemWrite` to an admitted offset (R62): writes to read-only and reserved offsets are ignored (R61). -/
def State.memWrite (off : Nat) (v : Word) (s : State) : Host.Outcome State Fault Refusal :=
  match regAt off with
  | .ctrl => .next { s with tickEn := v.getLsbD 0 }
  | .arg0 => .next { s with arg0 := v }
  | .arg1 => .next { s with arg1 := v }
  | .cmd => issue v s
  | .id => .next s
  | .status => .next s
  | .tick => .next s
  | .result => .next s
  | .config => .next s
  | .reserved => .next s

/-- Byte lane `k` of a register's value (R63); no admitted access can observe it. -/
def byteLane (v : Word) (k : Nat) : Byte := v.extractLsb' (8 * k) 8

/-- The bus address of byte lane `k` of the register at `off` (R63). -/
def laneAddress (off k : Nat) : Nat := Config.base + off + k

/-! ### The agents' steps -/

/-- One host access (R62, R64). -/
def hostAccess (a : Access) (s : State) : Host.Outcome State Fault Refusal :=
  match a with
  | .read off bytes =>
    if admitted off bytes then .next { s with reads := s.reads ++ [s.memRead off] } else .fault (.busError off bytes)
  | .write off bytes v => if admitted off bytes then s.memWrite off v else .fault (.busError off bytes)

/-- A host access, which a stalled host cannot make (10_state.md R50). -/
def Input.isHost : Input → Bool
  | .host _ => true
  | .tick => false
  | .pin _ _ => false
  | .reset => false

/-- The first input that is no host access, and the rest in order. -/
def firstNonHost : List Input → Option (Input × List Input)
  | [] => none
  | i :: is =>
    if i.isHost then
      match firstNonHost is with
      | none => none
      | some (j, rest) => some (j, i :: rest)
    else some (i, is)

/-- The next input: the head of the list, or, while a delay is pending, the first that is no host access, since the host
has no step then and its accesses wait in order (10_state.md R50, 20_memory.md R71; log entry 1). -/
def State.takeInput (s : State) : Option (Input × List Input) :=
  if s.busy then firstNonHost s.inputs
  else
    match s.inputs with
    | [] => none
    | i :: is => some (i, is)

/-- The end of a host program (00_scope.md R21): the host has no access left and no delay is pending.
The block does not stop there: its steps go on as before. -/
def State.programEnded (s : State) : Bool := !s.busy && s.inputs.all (fun i => !i.isHost)

/-- One input's step. -/
def runInput (i : Input) (s : State) : Host.Outcome State Fault Refusal :=
  match i with
  | .host a => hostAccess a s
  | .tick => .next s.tickEvent
  | .pin p b => .next (s.setPin p b)
  | .reset => .next s.resetBlock

/-- No input can be taken: the tick agent goes on while it is enabled (00_scope.md R21, 44_timebase.md R147); with the
tick agent disabled and a delay pending no agent has a step (R158); otherwise the block waits for host accesses
(70_reset_and_hazards.md R182; log entries 7 and 8). -/
def idleStep (s : State) : Host.Outcome State Fault Refusal :=
  if s.tickEn then .next s.tickStep
  else if s.busy then .fault .stuck
  else .next s

/-- One step of the machine. It starts with no FIRE in progress, whatever the engine's field holds: the samples of a FIRE
exist only inside its step (10_state.md R51), so the field carries nothing from one step to the next (00_scope.md R24). -/
def runStep (s : State) : Host.Outcome State Fault Refusal :=
  match s.takeInput with
  | some (i, rest) => runInput i { s.endFire with inputs := rest }
  | none => idleStep s.endFire

/-! ### Placing one instruction where the next step runs it (log entry 6) -/

/-- The host writes `c` to CMD next; it can, since no delay is pending. -/
def State.placeCommand (c : Word) (s : State) : State :=
  { s with pending := .none, inputs := .host (.write 0x1C 4 c) :: s.inputs }

/-- Slot 0 is ACTIVE in the entry's source state with the entry as its whole table, and the host fires it next.
An entry read for its action stands behind G_TRUE, since FIRE runs an action only after a guard that holds. -/
def State.placeEntry (e : Entry) (s : State) : State :=
  (s.setSlot 0 { s.slot 0 with
      sstat := .active, curState := entrySrc e, nent := 1#5,
      table := Slot.free.table.setIfInBounds 0
        (if readsAsAction e then entryWord (entrySrc e) (entryTgt e) 0x1#4 (entryAction e) else e) }).placeCommand
    0x20000000#32

/-- An instruction of `nbits` bits `w`, as decodeTableWord reads it. -/
def State.placeTableWord (nbits w : Nat) (s : State) : State :=
  if nbits = 16 then s.placeEntry (BitVec.ofNat 16 w) else s.placeCommand (BitVec.ofNat 32 w)

end Sys2Proof.Machine
end

