-- ==== Sys2Proof/Machine/Step.lean ====
section
/-! DEFINITION. One step of the machine, and where its next instruction is placed. -/

namespace Sys2Proof.Machine

/-- One step: the next input, or what goes on without one (00_scope.md R17, R18). -/
def step (s : State) : Host.Outcome State Fault Refusal := runStep s

/-- `s` with that instruction placed so that the very next step runs it (log entry 6). -/
def State.withFetchWord (s : State) (nbits w : Nat) : State := s.placeTableWord nbits w

end Sys2Proof.Machine
end

