-- ==== Sys2Proof/Safety.lean ====
section
/-! DEFINITION. What holds in every reachable state, in the terms the claims use (10_state.md section 7). -/

namespace Sys2Proof.Machine

/-- A table an ACTIVE slot may have: not empty, defined guard and action codes only, and every target the source state of
some entry (10_state.md R52). -/
def tableValid (es : List Entry) : Bool :=
  !es.isEmpty &&
    es.all (fun e => decide ((entryGuard e).toNat ≤ 5) && decide ((entryAction e).toNat ≤ 3) && isSource es (entryTgt e))

/-- The table of a preset kind, which no command can change (42_button.md R123, 43_blink.md R140, 10_state.md R53). -/
def presetTable : Kind → List Entry → Bool
  | .generic, _ => true
  | .button, es => decide (es = buttonTable)
  | .blink, es => decide (es = blinkTable)

/-- What a slot satisfies in every reachable state: the table memory is canonical (R41), a FREE slot is all 0 (R55), a
CONFIG slot is GENERIC in state 0 (R56), and an ACTIVE slot has a valid table, its kind's own if the kind is preset, and
is in a source state of it (R52, R54). -/
def Slot.good (x : Slot) : Bool :=
  x.tableWf &&
    match x.sstat with
    | .free => decide (x = Slot.free)
    | .config => decide (x.kind = .generic) && decide (x.curState = 0#4)
    | .active => tableValid x.entries && isSource x.entries x.curState && presetTable x.kind x.entries

/-- The invariant of the machine: every slot is good and no FIRE is in progress between steps (R51). -/
def State.Inv (s : State) : Prop := (∀ k, (s.slot k).good = true) ∧ s.engine = Engine.idle

/-- The premise `reset_state` a run can start from (70_reset_and_hazards.md R185(a)): the block at the values of
10_state.md R57. What the host and the environment hold is free. -/
def State.resetState (s : State) : Prop := s.toBlock = Block.reset ∧ s.engine = Engine.idle

/-- The premise `clean_entry` a run can start from (70_reset_and_hazards.md R185(b)): the invariants hold and no delay is
pending. A fault is an outcome of a step and no state records one, so none is recorded. -/
def State.cleanEntry (s : State) : Prop := s.Inv ∧ s.pending = .none

/-- Every input left is a host access. -/
def onlyHostInputs (is : List Input) : Bool := is.all Input.isHost

end Sys2Proof.Machine
end

