-- ==== Sys2Proof/Certificates/Slice0/Obligations.lean ====
section
/-! DEFINITION. The statements for the provers, and the words of the spec they are put in. -/

namespace Sys2Proof.Spec
open Sys2Proof.Machine

/-- When a guard holds (30_encoding.md R87), as a function of the slot, the tick sample and the pin sample (R106). -/
def guardHolds (g : Nibble) (x : Slot) (t : Word) (lvl : Bool) : Bool :=
  if g = 0x0 then false
  else if g = 0x1 then true
  else if g = 0x2 then lvl
  else if g = 0x3 then !lvl
  else if g = 0x4 then !(t - x.nextTimeout).msb
  else if g = 0x5 then decide (x.param.toNat / 2 ≤ (t - x.t0).toNat)
  else false

/-- What an action does to its slot (30_encoding.md R88). -/
def actOn (a : Nibble) (x : Slot) (t : Word) : Slot :=
  if a = 0x1 then { x with t0 := t, nextTimeout := t + x.param }
  else if a = 0x2 then { x with duration := t - x.t0, nextTimeout := t + x.param }
  else if a = 0x3 then { x with t0 := t }
  else x

/-- The GPIO requests an action sends (30_encoding.md R88). -/
def sent (a : Nibble) (x : Slot) : List GpioRequest := if a = 0x3 then [.toggle x.pin] else []

/-- The accepted transition: the first entry, in table order, of the current state whose guard holds (R98, R99). -/
def accepted (x : Slot) (t : Word) (lvl : Bool) : Option Entry :=
  x.entries.find? (fun e => decide (entrySrc e = x.curState) && guardHolds (entryGuard e) x t lvl)

/-- The slot after a FIRE (R95, R100, R101, R102). -/
def firedSlot (x : Slot) (t : Word) (lvl : Bool) : Slot :=
  match accepted x t lvl with
  | none => x
  | some e => { actOn (entryAction e) x t with curState := entryTgt e }

/-- The GPIO requests of a FIRE. -/
def firedRequests (x : Slot) (t : Word) (lvl : Bool) : List GpioRequest :=
  match accepted x t lvl with
  | none => []
  | some e => sent (entryAction e) x

/-- The guard row an entry is executed as. -/
def guardInstr (e : Entry) : Option Instr := (decodeGuard e).toOption

/-- The action row an entry is executed as. -/
def actionInstr (e : Entry) : Option Instr := (decodeAction e).toOption

/-- The state an outcome goes on to, if it does. -/
def nextOf : Host.Outcome State Fault Refusal → Option State
  | .next t => some t
  | .fault _ => none
  | .refused _ => none

/-- `k` is the least FREE slot. -/
def leastFree (s : State) (k : Fin Config.nslot) : Prop :=
  (s.slot k).sstat = .free ∧ ∀ j, j < k → (s.slot j).sstat ≠ .free

/-- No slot is FREE. -/
def noneFree (s : State) : Prop := ∀ k, (s.slot k).sstat ≠ .free

/-- The live slot a command names: in range and not FREE. -/
def named (s : State) (n : Nat) (k : Fin Config.nslot) : Prop := n = k.val ∧ (s.slot k).sstat ≠ .free

/-- No live slot: the index is out of range or the slot is FREE (60_exceptions.md R164, E_BADSLOT). -/
def noLiveSlot (s : State) (n : Nat) : Prop := ∀ k : Fin Config.nslot, n = k.val → (s.slot k).sstat = .free

/-- Some valid entry has source state `st`. -/
def hasSource (es : List Entry) (st : Nibble) : Prop := ∃ e ∈ es, entrySrc e = st

/-- What makes one entry fail, and with which reason: guard, then action, then target (R113). -/
def entryFails (es : List Entry) (e : Entry) (r : Reason) : Prop :=
  (5 < (entryGuard e).toNat ∧ r = .badGuard) ∨
  ((entryGuard e).toNat ≤ 5 ∧ 3 < (entryAction e).toNat ∧ r = .badAction) ∨
  ((entryGuard e).toNat ≤ 5 ∧ (entryAction e).toNat ≤ 3 ∧ ¬ hasSource es (entryTgt e) ∧ r = .deadTarget)

/-- The command column "writes RESULT" of 30_encoding.md R81. -/
def writesResult : Instr → Bool
  | .now | .delayUntil | .alloc | .wrtab _ | .commit _ | .newButton | .newBlink | .rdstate _ | .rdfld _ _
  | .rdtab _ _ | .getDuration _ | .checkActivity _ => true
  | _ => false

/-- The instructions that can write TICK (R148). -/
def writesTick : Instr → Bool
  | .tickset | .tickstep => true
  | _ => false

/-- The instructions that can leave a delay pending (R50). -/
def waits : Instr → Bool
  | .delay | .delayUntil => true
  | _ => false

/-- The instructions that can send a GPIO request (R95, R141, R144). -/
def sends : Instr → Bool
  | .newBlink | .fire _ | .aToggle _ _ _ => true
  | _ => false

/-- The instructions that can write a slot's fields or table. -/
def writesSlots : Instr → Bool
  | .alloc | .wrtab _ | .wrfld _ _ | .commit _ | .newButton | .newBlink | .destroy _ | .fire _ | .resetDuration _ => true
  | .aPressStart _ _ _ | .aReleaseStart _ _ _ | .aToggle _ _ _ => true
  | _ => false

/-- The slot index a command word names. -/
def slotNamed : Instr → Option Nat
  | .wrtab n | .wrfld n _ | .commit n | .destroy n | .fire n | .rdstate n | .rdfld n _ | .rdtab n _
  | .getDuration n | .resetDuration n | .checkActivity n => some n
  | _ => none

/-- Slot `k` is one the instruction may write: the one it names, the least FREE one for the commands that allocate, the
one being fired for an action. -/
def mayWriteSlot (i : Instr) (s : State) (k : Fin Config.nslot) : Prop :=
  slotNamed i = some k.val ∨
  ((i = .alloc ∨ i = .newButton ∨ i = .newBlink) ∧ leastFree s k) ∨
  (i.format = .te16Action ∧ s.engine.slot = k)

/-- The number of an error code (60_exceptions.md R164). -/
def errNumber : Err → Word
  | .ok => 0x00#32
  | .noSlot => 0x01#32
  | .badTable => 0x02#32
  | .illegal => 0x03#32
  | .badSlot => 0x04#32
  | .state => 0x05#32
  | .kind => 0x06#32
  | .tabFull => 0x07#32
  | .tickRun => 0x08#32
  | .badField => 0x09#32
  | .badArg => 0x0A#32

/-- The number of a slot status (10_state.md R38). -/
def sstatNumber : SlotStatus → Word
  | .free => 0#32
  | .config => 1#32
  | .active => 2#32

/-- The number of a kind (10_state.md R39). -/
def kindNumber : Kind → Word
  | .generic => 0#32
  | .button => 1#32
  | .blink => 2#32

/-- The number of a reason a table fails validation for (41_engine.md R113). -/
def reasonNumber : Reason → Nat
  | .empty => 1
  | .badGuard => 2
  | .badAction => 3
  | .deadTarget => 4
  | .badInitial => 5

/-- `i` is the input the next step takes, with `before` and `rest` left: it stands first, or, while a delay is pending, behind
host accesses that wait (10_state.md R50; log entry 1). -/
def comesNext (s : State) (i : Input) (before rest : List Input) : Prop :=
  s.inputs = before ++ i :: rest ∧
    ((s.pending = .none ∧ before = []) ∨ (s.pending ≠ .none ∧ onlyHostInputs before = true))

/-- No input can be taken: none is left, or, while a delay is pending, none but host accesses (log entry 1). -/
def noneComes (s : State) : Prop :=
  (s.pending = .none ∧ s.inputs = []) ∨ (s.pending ≠ .none ∧ onlyHostInputs s.inputs = true)

/-- The pin a request is about. -/
def requestPin : GpioRequest → PinId
  | .write p _ => p
  | .toggle p => p

/-- The level a pin was last driven to by a list of requests, if one of them drove it. -/
def lastLevel (p : PinId) (out : List GpioRequest) : Option Bool :=
  out.foldl (fun acc r =>
    match r with
    | .write q b => if q = p then some b else acc
    | .toggle q => if q = p then acc.map not else acc) none

/-- A blink slot's pin was last driven high in ON and low in OFF (43_blink.md R139). -/
def blinkAgrees (s : State) (k : Fin Config.nslot) : Prop :=
  lastLevel (s.slot k).pin s.gpioOut = some (decide ((s.slot k).curState = 1#4))

/-- The slot `k` fired at tick `t` with level `b` on its pin. -/
def fireAt (k : Fin Config.nslot) (t : Word) (b : Bool) (s : State) : Option State :=
  nextOf (exec (.fire k.val) ({ s with tick := t }.setPin (s.slot k).pin b))

/-- FIREs at each of the ticks `ts`, all with the pin pressed. -/
def fireHeld (k : Fin Config.nslot) : List Word → State → Option State
  | [], s => some s
  | t :: ts, s => (fireAt k t true s).bind (fireHeld k ts)

/-- Commands issued one after the other, ARG0 written before each. -/
def issueEach : List (Word × Instr) → State → Option State
  | [], s => some s
  | (a, i) :: rest, s => (nextOf (exec i { s with arg0 := a })).bind (issueEach rest)

/-- ALLOC, six WRTAB, two WRFLD and COMMIT (42_button.md R127). -/
def buttonBuild (n : Nat) (debounce : Word) (pin : PinId) : List (Word × Instr) :=
  [(0#32, .alloc), (0x0121#32, .wrtab n), (0x1030#32, .wrtab n), (0x1240#32, .wrtab n), (0x2332#32, .wrtab n),
   (0x3220#32, .wrtab n), (0x3040#32, .wrtab n), (debounce, .wrfld n 0), (pin.setWidth 32, .wrfld n 4),
   (0#32, .commit n)]

end Sys2Proof.Spec

open Sys2Proof Sys2Proof.Machine Sys2Proof.Spec

/-! ### Encoding -/

/-- Words written out from R79, R81, R86 decode to the instructions they stand for. -/
def Obligations.SpecWordsDecode : Prop :=
  decode .cmd32 0x00000000#32 = .instr .nop ∧
  decode .cmd32 0x03000000#32 = .instr .delayUntil ∧
  decode .cmd32 0x12030400#32 = .instr (.wrfld 3 4) ∧
  decode .cmd32 0x20FF0000#32 = .instr (.fire 255) ∧
  decode .cmd32 0x32010000#32 = .instr (.checkActivity 1) ∧
  decode .te16Guard 0x2332#32 = .instr (.gPinReleased 2#4 3#4 2#4) ∧
  decode .te16Action 0x2332#32 = .instr (.aReleaseStart 2#4 3#4 3#4)

/-- R79, R81, R86: no bit of an encoding is dropped, for every instruction of the table. -/
def Obligations.EncodeThenDecode : Prop :=
  ∀ i : Instr, i.wellFormed = true → decode i.format (encode i) = .instr i

/-- R79, R81, R82, R86: a word that decodes is the encoding of the instruction it decodes to, and of no other. -/
def Obligations.DecodeThenEncode : Prop :=
  ∀ (f : Format) (w : Word) (i : Instr), decode f w = .instr i →
    i.wellFormed = true ∧ i.format = f ∧ encode i = w

/-- R82, R83: exactly which command words are illegal. -/
def Obligations.IllegalCommandWords : Prop :=
  ∀ c : Word, (∃ why, decode .cmd32 c = .illegal why) ↔
    ((0x06 ≤ (cmdOp c).toNat ∧ (cmdOp c).toNat ≤ 0x0F) ∨ (0x17 ≤ (cmdOp c).toNat ∧ (cmdOp c).toNat ≤ 0x1F) ∨
     (0x24 ≤ (cmdOp c).toNat ∧ (cmdOp c).toNat ≤ 0x2F) ∨ 0x33 ≤ (cmdOp c).toNat ∨
     c.toNat % 256 ≠ 0 ∨
     ((cmdOp c).toNat ∉ [0x11, 0x12, 0x13, 0x16, 0x20, 0x21, 0x22, 0x23, 0x30, 0x31, 0x32] ∧
       c.toNat / 65536 % 256 ≠ 0) ∨
     ((cmdOp c).toNat ∉ [0x12, 0x22, 0x23] ∧ c.toNat / 256 % 256 ≠ 0))

/-- R86: the four fields of an entry and its value. -/
def Obligations.EntryFields : Prop :=
  ∀ src tgt g a : Nibble,
    entrySrc (entryWord src tgt g a) = src ∧ entryTgt (entryWord src tgt g a) = tgt ∧
    entryGuard (entryWord src tgt g a) = g ∧ entryAction (entryWord src tgt g a) = a ∧
    (entryWord src tgt g a).toNat = src.toNat * 4096 + tgt.toNat * 256 + g.toNat * 16 + a.toNat

/-! ### The window and the step

Every step starts and ends with the engine idle, whatever its field held before (R24, R51; log entry 4). -/

/-- R93: when the host's next access writes a legal word to CMD, the step is that command's execution, on the state
without that access and with no FIRE in progress (R51; log entry 4). -/
def Obligations.StepRunsIssuedCommand : Prop :=
  ∀ (s : State) (c : Word) (i : Instr) (rest : List Input),
    s.pending = .none → s.inputs = .host (.write 0x1C 4 c) :: rest → decode .cmd32 c = .instr i →
    step s = exec i { s with engine := Engine.idle, inputs := rest }

/-- R93: an illegal word writes E_ILLEGAL and nothing else. -/
def Obligations.IllegalWordRefused : Prop :=
  ∀ (s : State) (c : Word) (why : Illegal) (rest : List Input),
    s.pending = .none → s.inputs = .host (.write 0x1C 4 c) :: rest → decode .cmd32 c = .illegal why →
    step s = .next { s with engine := Engine.idle, inputs := rest, err := .illegal }

/-- R60, R61, R62, R67, R164: what each admitted read returns; it changes nothing of the block. BUSY is 0 in STATUS, since a
host that has a step is not stalled (R28). -/
def Obligations.WindowReads : Prop :=
  ∀ (s : State) (off : Nat) (rest : List Input),
    s.pending = .none → off % 4 = 0 → off < 0x100 → s.inputs = .host (.read off 4) :: rest →
    step s = .next { s with
      engine := Engine.idle,
      inputs := rest,
      reads := s.reads ++
        [if off = 0x00 then 0x53444701#32
         else if off = 0x04 then (if s.tickEn then 1#32 else 0#32)
         else if off = 0x08 then errNumber s.err
         else if off = 0x0C then s.tick
         else if off = 0x10 then s.arg0
         else if off = 0x14 then s.arg1
         else if off = 0x18 then s.result
         else if off = 0x20 then 0x08201004#32
         else 0#32] }

/-- R61, R62, R26: what each admitted write does, but for a write to CMD (StepRunsIssuedCommand, IllegalWordRefused). -/
def Obligations.WindowWrites : Prop :=
  ∀ (s : State) (off : Nat) (v : Word) (rest : List Input),
    s.pending = .none → off % 4 = 0 → off < 0x100 → off ≠ 0x1C → s.inputs = .host (.write off 4 v) :: rest →
    step s = .next (
      if off = 0x04 then { s with engine := Engine.idle, inputs := rest, tickEn := v.getLsbD 0 }
      else if off = 0x10 then { s with engine := Engine.idle, inputs := rest, arg0 := v }
      else if off = 0x14 then { s with engine := Engine.idle, inputs := rest, arg1 := v }
      else { s with engine := Engine.idle, inputs := rest })

/-- R64, R167: an access the window does not admit is a bus error. -/
def Obligations.UnadmittedAccessFaults : Prop :=
  ∀ (s : State) (off bytes : Nat) (v : Word) (rest : List Input),
    s.pending = .none → (bytes ≠ 4 ∨ off % 4 ≠ 0 ∨ 0x100 ≤ off) →
    (s.inputs = .host (.read off bytes) :: rest ∨ s.inputs = .host (.write off bytes v) :: rest) →
    step s = .fault (.busError off bytes)

/-- R63: the byte lanes of a register, lane 0 the lowest. -/
def Obligations.ByteLanesLittleEndian : Prop :=
  ∀ v : Word, v = byteLane v 3 ++ byteLane v 2 ++ byteLane v 1 ++ byteLane v 0

/-- R57, R27, R33: the values right after reset. -/
def Obligations.ResetValues : Prop :=
  State.reset.tick = 0#32 ∧ State.reset.ctrl = 0#32 ∧ State.reset.status = 0#32 ∧
  State.reset.arg0 = 0#32 ∧ State.reset.arg1 = 0#32 ∧ State.reset.result = 0#32 ∧
  State.reset.memRead 0x00 = 0x53444701#32 ∧ State.reset.memRead 0x20 = 0x08201004#32 ∧
  State.reset.pending = .none ∧ State.reset.gpioOut = [] ∧
  ∀ k, (State.reset.slot k).sstat.code = 0#2 ∧ (State.reset.slot k).kind.code = 0#2 ∧
    (State.reset.slot k).curState = 0#4 ∧ (State.reset.slot k).nent = 0#5 ∧ (State.reset.slot k).param = 0#32 ∧
    (State.reset.slot k).t0 = 0#32 ∧ (State.reset.slot k).nextTimeout = 0#32 ∧
    (State.reset.slot k).duration = 0#32 ∧ (State.reset.slot k).pin = 0#8 ∧
    ∀ i : Fin 16, (State.reset.slot k).table.get i = 0#16

/-- R181: a reset, at any time and in one step, sets the block to its reset values, drops a pending delay and sends no
GPIO request. What the environment holds stays (log entry 13: the model's choice). -/
def Obligations.ResetAtAnyTime : Prop :=
  ∀ (s : State) (before rest : List Input), comesNext s .reset before rest →
    step s = .next { State.reset with
      gpioOut := s.gpioOut, reads := s.reads, pins := s.pins, inputs := before ++ rest }

/-- R46: a change of a pin's level, a stalled host's accesses waiting or not, changes the level of that pin and nothing
else. -/
def Obligations.LevelChanges : Prop :=
  ∀ (s : State) (p : PinId) (b : Bool) (before rest : List Input), comesNext s (.pin p b) before rest →
    ∃ levels : BitVec 256, step s = .next { s with engine := Engine.idle, inputs := before ++ rest, pins := levels } ∧
      ∀ q : PinId, levels.getLsbD q.toNat = if q = p then b else s.gpioRead q

/-! ### Comparisons -/

/-- R149: the half of the circle in which a deadline reads as reached. -/
def Obligations.DeadlineHalfCircle : Prop :=
  ∀ now d : Word, deadlineReached now d = true ↔ (now - d).toNat < 2 ^ 31

/-- R151 (a) to (c). -/
def Obligations.DeadlineCountdown : Prop :=
  (∀ d : Word, deadlineReached d d = true ∧ deadlineReached (d - 1#32) d = false) ∧
  (∀ (d : Word) (k : Nat), 1 ≤ k → k ≤ 2 ^ 31 →
    (∀ j, j < k → deadlineReached (d - BitVec.ofNat 32 k + BitVec.ofNat 32 j) d = false) ∧
    (∀ j, j < 2 ^ 31 → deadlineReached (d - BitVec.ofNat 32 k + BitVec.ofNat 32 (k + j)) d = true)) ∧
  (∀ d : Word, deadlineReached (d + 0x80000000#32) d = false) ∧
  (∀ now d : Word, now.toNat < d.toNat + 2 ^ 31 → d.toNat < now.toNat + 2 ^ 31 →
    (deadlineReached now d = true ↔ d.toNat ≤ now.toNat))

/-- R150, R151 (d), (e). -/
def Obligations.ElapsedCountdown : Prop :=
  (∀ now start : Word, elapsedAtLeast now start 0#32 = true) ∧
  (∀ (start n : Word) (j : Nat), j < 2 ^ 32 →
    (elapsedAtLeast (start + BitVec.ofNat 32 j) start n = true ↔ n.toNat ≤ j)) ∧
  (∀ start n : Word, 1 ≤ n.toNat → elapsedAtLeast (start + BitVec.ofNat 32 (2 ^ 32)) start n = false)

/-! ### Timebase -/

/-- R146, R155, R157: one tick event while the tick agent is enabled, a stalled host's accesses waiting or not. -/
def Obligations.TickStep : Prop :=
  ∀ (s : State) (before rest : List Input), s.tickEn = true → comesNext s .tick before rest →
    (s.pending = .none → step s = .next { s with engine := Engine.idle, inputs := before ++ rest, tick := s.tick + 1#32 }) ∧
    (∀ start n, s.pending = .delay start n →
      step s = .next (
        if n.toNat ≤ (s.tick + 1#32 - start).toNat then
          { s with engine := Engine.idle, inputs := before ++ rest, tick := s.tick + 1#32, pending := .none, err := .ok }
        else { s with engine := Engine.idle, inputs := before ++ rest, tick := s.tick + 1#32 })) ∧
    (∀ target, s.pending = .delayUntil target →
      step s = .next (
        if (s.tick + 1#32 - target).toNat < 2 ^ 31 then
          { s with engine := Engine.idle, inputs := before ++ rest, tick := s.tick + 1#32, arg0 := s.tick + 1#32,
                   result := s.tick + 1#32, pending := .none, err := .ok }
        else { s with engine := Engine.idle, inputs := before ++ rest, tick := s.tick + 1#32 }))

/-- R48, R171: a tick event while the tick agent is disabled is lost, a stalled host's accesses waiting or not. -/
def Obligations.TickEventLost : Prop :=
  ∀ (s : State) (before rest : List Input), s.tickEn = false → comesNext s .tick before rest →
    step s = .next { s with engine := Engine.idle, inputs := before ++ rest }

/-- R121, R152: NOP and NOW, with the words that encode them. -/
def Obligations.NopAndNow : Prop :=
  decode .cmd32 0x00000000#32 = .instr .nop ∧ decode .cmd32 0x01000000#32 = .instr .now ∧
  ∀ s : State,
    exec .nop s = .next { s with err := .ok } ∧
    exec .now s = .next { s with result := s.tick, err := .ok }

/-- R154: the issue step of DELAY. R28, R50, R164: STATUS has BUSY at bit 8, set exactly while a delay is pending, and ERR's
number below it. -/
def Obligations.DelayIssue : Prop :=
  ∀ s : State,
    (s.arg0 = 0#32 → exec .delay s = .next { s with err := .ok }) ∧
    (s.arg0 ≠ 0#32 → exec .delay s = .next { s with pending := .delay s.tick s.arg0 }) ∧
    s.status = (if s.pending = .none then 0#32 else 0x100#32) + errNumber s.err

/-- R156: the issue step of DELAY_UNTIL. -/
def Obligations.DelayUntilIssue : Prop :=
  ∀ s : State,
    ((s.tick - (s.arg0 + s.arg1)).toNat < 2 ^ 31 →
      exec .delayUntil s = .next { s with arg0 := s.tick, result := s.tick, err := .ok }) ∧
    (2 ^ 31 ≤ (s.tick - (s.arg0 + s.arg1)).toNat →
      exec .delayUntil s = .next { s with pending := .delayUntil (s.arg0 + s.arg1) })

/-- R154, R155: a DELAY of n > 0 ticks is pending for the first n - 1 tick steps and completes in the n-th. -/
def Obligations.DelayTakesExactlyNTicks : Prop :=
  ∀ s : State, s.arg0 ≠ 0#32 → ∃ d, exec .delay s = .next d ∧
    (∀ m, m < s.arg0.toNat →
      State.tickStep^[m] d = { s with pending := .delay s.tick s.arg0, tick := s.tick + BitVec.ofNat 32 m }) ∧
    State.tickStep^[s.arg0.toNat] d = { s with tick := s.tick + s.arg0, err := .ok, pending := .none }

/-- R156, R157: a DELAY_UNTIL that waits returns at exactly its target, with ARG0 and RESULT the target. -/
def Obligations.DelayUntilReturnsAtTarget : Prop :=
  ∀ s : State, 2 ^ 31 ≤ (s.tick - (s.arg0 + s.arg1)).toNat → ∃ d, exec .delayUntil s = .next d ∧
    (∀ m, m < (s.arg0 + s.arg1 - s.tick).toNat →
      State.tickStep^[m] d =
        { s with pending := .delayUntil (s.arg0 + s.arg1), tick := s.tick + BitVec.ofNat 32 m }) ∧
    State.tickStep^[(s.arg0 + s.arg1 - s.tick).toNat] d =
      { s with tick := s.arg0 + s.arg1, arg0 := s.arg0 + s.arg1, result := s.arg0 + s.arg1, err := .ok,
               pending := .none }

/-- What a step does when no input can be taken: with the tick agent enabled it is a tick step (R21, R146, R147; log entry
7), with it disabled and no delay pending it leaves the state (R182; log entry 7), and with it disabled and a delay
pending it is stuck (R158; log entry 8). After the end of a host program the block goes on, and the program stays ended
(R21), over a reset too, which leaves the inputs to come (log entry 13: the model's choice). -/
def Obligations.StepsWithoutInput : Prop :=
  (∀ s : State, noneComes s →
    (s.tickEn = true → s.pending = .none → step s = .next { s with engine := Engine.idle, tick := s.tick + 1#32 }) ∧
    (∀ start n, s.tickEn = true → s.pending = .delay start n →
      step s = .next (
        if n.toNat ≤ (s.tick + 1#32 - start).toNat then
          { s with engine := Engine.idle, tick := s.tick + 1#32, pending := .none, err := .ok }
        else { s with engine := Engine.idle, tick := s.tick + 1#32 })) ∧
    (∀ target, s.tickEn = true → s.pending = .delayUntil target →
      step s = .next (
        if (s.tick + 1#32 - target).toNat < 2 ^ 31 then
          { s with engine := Engine.idle, tick := s.tick + 1#32, arg0 := s.tick + 1#32, result := s.tick + 1#32,
                   pending := .none, err := .ok }
        else { s with engine := Engine.idle, tick := s.tick + 1#32 })) ∧
    (s.tickEn = false → s.pending = .none → step s = .next { s with engine := Engine.idle }) ∧
    (s.tickEn = false → s.pending ≠ .none → step s = .fault .stuck)) ∧
  (∀ s : State, s.programEnded = true ↔ s.pending = .none ∧ s.inputs.filter Input.isHost = []) ∧
  (∀ s : State, s.programEnded = true → ∃ t, step s = .next t ∧ t.programEnded = true)

/-- R50, R71: while a delay is pending the host has no step: its accesses stay where they are, and no value is read. The
list of inputs is the model's (log entry 1); that a step which takes a reset leaves them too is its choice (log entry 13). -/
def Obligations.StalledHostHasNoStep : Prop :=
  ∀ s t : State, s.pending ≠ .none → step s = .next t →
    t.inputs.filter Input.isHost = s.inputs.filter Input.isHost ∧ t.reads = s.reads

/-- R159, R160: the test hooks TICKSET and TICKSTEP, with the words that encode them. -/
def Obligations.TickHooks : Prop :=
  decode .cmd32 0x04000000#32 = .instr .tickset ∧ decode .cmd32 0x05000000#32 = .instr .tickstep ∧
  ∀ s : State,
    (s.tickEn = false → exec .tickset s = .next { s with tick := s.arg0, err := .ok }) ∧
    (s.tickEn = true → exec .tickset s = .next { s with err := .tickRun }) ∧
    (s.tickEn = false → exec .tickstep s = .next { s with tick := s.tick + s.arg0, err := .ok }) ∧
    (s.tickEn = true → exec .tickstep s = .next { s with err := .tickRun })

/-- R161: a TICKSTEP of n is n tick steps with no host step between them, but for STATUS.ERR. -/
def Obligations.TickstepIsTickSteps : Prop :=
  ∀ s : State, s.tickEn = false → s.pending = .none →
    exec .tickstep s = .next { State.tickStep^[s.arg0.toNat] s with err := .ok }

/-- R72, R148: among the instructions only TICKSET and TICKSTEP write TICK, and only while the tick agent is disabled;
while it is disabled a tick event writes nothing. -/
def Obligations.TickHasSingleWriter : Prop :=
  (∀ (i : Instr) (s t : State), exec i s = .next t → t.tick ≠ s.tick →
    s.tickEn = false ∧ (i = .tickset ∨ i = .tickstep)) ∧
  (∀ s : State, s.tickEn = false → s.tickEvent = s)

/-! ### FIRE -/

/-- R96: FIRE on no live slot or on a CONFIG slot changes nothing but STATUS.ERR. -/
def Obligations.FireRefused : Prop :=
  ∀ (s : State) (n : Nat),
    (noLiveSlot s n → exec (.fire n) s = .next { s with err := .badSlot }) ∧
    (∀ k, named s n k → (s.slot k).sstat = .config → exec (.fire n) s = .next { s with err := .state })

/-- R95, R98, R99, R101, R102, R103: FIRE on an ACTIVE slot is the transition the rules give, from one sample of TICK
and one of the slot's pin. -/
def Obligations.FireIsTransition : Prop :=
  ∀ (s : State) (k : Fin Config.nslot), (s.slot k).sstat = .active →
    exec (.fire k.val) s = .next { s with
      slots := s.slots.set k (firedSlot (s.slot k) s.tick (s.gpioRead (s.slot k).pin)),
      gpioOut := s.gpioOut ++ firedRequests (s.slot k) s.tick (s.gpioRead (s.slot k).pin),
      err := .ok, engine := Engine.idle }

/-- R100: no guard of an entry of the current state holds: only STATUS.ERR is written. -/
def Obligations.FireIdleIsNoOp : Prop :=
  ∀ (s : State) (k : Fin Config.nslot), (s.slot k).sstat = .active → s.engine = Engine.idle →
    (∀ e ∈ (s.slot k).entries, entrySrc e = (s.slot k).curState →
      guardHolds (entryGuard e) (s.slot k) s.tick (s.gpioRead (s.slot k).pin) = false) →
    exec (.fire k.val) s = .next { s with err := .ok }

/-- R106: the outcome of FIRE depends on its slot, the tick sample and the pin level alone. R23, R24: what a command does to
the block and which requests it sends depends on the block's state, and for FIRE on the level it samples, alone; and so does
what the host reads on the block's state. R24, R51: no step reads what the engine's field holds before it, and every step
leaves it idle, so the field carries nothing from one step to the next (log entry 4); and what a step does to the block does
not depend on what the host has read or the block has sent (log entry 21). -/
def Obligations.OutcomesDependOnBlockState : Prop :=
  (∀ (s u : State) (k : Fin Config.nslot), (s.slot k).sstat = .active → s.slot k = u.slot k → s.tick = u.tick →
    s.gpioRead (s.slot k).pin = u.gpioRead (u.slot k).pin →
    ∃ s' u' out, exec (.fire k.val) s = .next s' ∧ exec (.fire k.val) u = .next u' ∧
      s'.slot k = u'.slot k ∧ s'.err = u'.err ∧ s'.gpioOut = s.gpioOut ++ out ∧ u'.gpioOut = u.gpioOut ++ out) ∧
  (∀ (i : Instr) (s u : State), i.format = .cmd32 → s.toBlock = u.toBlock →
    (∀ k : Fin Config.nslot, i = .fire k.val → s.gpioRead (s.slot k).pin = u.gpioRead (s.slot k).pin) →
    ∃ s' u' out, exec i s = .next s' ∧ exec i u = .next u' ∧
      s'.toBlock = u'.toBlock ∧ s'.gpioOut = s.gpioOut ++ out ∧ u'.gpioOut = u.gpioOut ++ out) ∧
  (∀ (s u : State) (off : Nat), s.toBlock = u.toBlock → s.memRead off = u.memRead off) ∧
  (∀ (s : State) (e : Engine), step { s with engine := e } = step s) ∧
  (∀ s t : State, step s = .next t → t.engine = Engine.idle) ∧
  (∀ (s t : State) (out : List GpioRequest) (seen : List Word), step s = .next t →
    ∃ t', step { s with gpioOut := out, reads := seen } = .next t' ∧ t'.toBlock = t.toBlock)

/-- R95, R98, R99, R101, R102, in terms of exec: the first entry of the current state whose guard row answers true is
accepted, its action row is executed once, then CUR_STATE becomes its target (log entry 5). -/
def Obligations.FireRunsItsEntries : Prop :=
  ∀ (s : State) (k : Fin Config.nslot) (before after : List Entry) (e : Entry) (g a : Instr) (u v : State),
    (s.slot k).sstat = .active → (s.slot k).entries = before ++ e :: after →
    (∀ b ∈ before, entrySrc b = (s.slot k).curState →
      ∀ gb w, guardInstr b = some gb → exec gb (s.beginFire k) = .next w → w.engine.verdict = false) →
    entrySrc e = (s.slot k).curState → guardInstr e = some g → actionInstr e = some a →
    exec g (s.beginFire k) = .next u → u.engine.verdict = true → exec a u = .next v →
    exec (.fire k.val) s = .next { v with
      slots := v.slots.set k { v.slot k with curState := entryTgt e }, err := .ok, engine := Engine.idle }

/-- R105, R107, R108, R128, R129, R130, R143: what each guard answers; nothing else changes. -/
def Obligations.GuardResults : Prop :=
  ∀ (s : State) (src tgt a : Nibble),
    exec (.gFalse src tgt a) s = .next { s with engine := { s.engine with verdict := false } } ∧
    exec (.gTrue src tgt a) s = .next { s with engine := { s.engine with verdict := true } } ∧
    exec (.gPinPressed src tgt a) s = .next { s with engine := { s.engine with verdict := s.engine.level } } ∧
    exec (.gPinReleased src tgt a) s = .next { s with engine := { s.engine with verdict := !s.engine.level } } ∧
    exec (.gTimeout src tgt a) s = .next { s with engine := { s.engine with
      verdict := decide ((s.engine.tick - (s.slot s.engine.slot).nextTimeout).toNat < 2 ^ 31) } } ∧
    exec (.gHalfPeriod src tgt a) s = .next { s with engine := { s.engine with
      verdict := decide ((s.slot s.engine.slot).param.toNat / 2 ≤
        (s.engine.tick - (s.slot s.engine.slot).t0).toNat) } }

/-- R101, R109, R131, R132, R144: what each action does; nothing else changes. -/
def Obligations.ActionResults : Prop :=
  ∀ (s : State) (src tgt g : Nibble) (x : Slot), x = s.slot s.engine.slot →
    exec (.aNone src tgt g) s = .next s ∧
    exec (.aPressStart src tgt g) s = .next { s with
      slots := s.slots.set s.engine.slot { x with t0 := s.engine.tick, nextTimeout := s.engine.tick + x.param } } ∧
    exec (.aReleaseStart src tgt g) s = .next { s with
      slots := s.slots.set s.engine.slot { x with duration := s.engine.tick - x.t0, nextTimeout := s.engine.tick + x.param } } ∧
    exec (.aToggle src tgt g) s = .next { s with
      gpioOut := s.gpioOut ++ [.toggle x.pin],
      slots := s.slots.set s.engine.slot { x with t0 := s.engine.tick } }

/-! ### Registering a table, debug reads -/

/-- R110: ALLOC takes the least FREE slot, or reports E_NOSLOT. -/
def Obligations.AllocTakesLeastFree : Prop :=
  ∀ s : State,
    (∀ k, leastFree s k → exec .alloc s = .next { s with
      slots := s.slots.set k { Slot.free with sstat := .config, kind := .generic },
      result := BitVec.ofNat 32 k.val, err := .ok }) ∧
    (noneFree s → exec .alloc s = .next { s with err := .noSlot })

/-- R111: WRTAB appends an entry, or is refused by the first check that fails. -/
def Obligations.WrtabResult : Prop :=
  ∀ (s : State) (n : Nat),
    (noLiveSlot s n → exec (.wrtab n) s = .next { s with err := .badSlot }) ∧
    ∀ k, named s n k →
      exec (.wrtab n) s = .next (
        if (s.slot k).sstat = .active then { s with err := .state }
        else if 2 ^ 16 ≤ s.arg0.toNat then { s with err := .badArg }
        else if (s.slot k).nent = 16#5 then { s with err := .tabFull }
        else { s with
          slots := s.slots.set k { s.slot k with
            table := (s.slot k).table.setIfInBounds (s.slot k).nent.toNat (s.arg0.setWidth 16),
            nent := (s.slot k).nent + 1#5 },
          result := (s.slot k).nent.setWidth 32, err := .ok })

/-- R112: WRFLD writes one field, or is refused by the first check that fails. -/
def Obligations.WrfldResult : Prop :=
  ∀ (s : State) (n f : Nat),
    (noLiveSlot s n → exec (.wrfld n f) s = .next { s with err := .badSlot }) ∧
    ∀ k, named s n k →
      exec (.wrfld n f) s = .next (
        if (s.slot k).sstat = .active then { s with err := .state }
        else if 4 < f then { s with err := .badField }
        else if f = 4 ∧ 2 ^ 8 ≤ s.arg0.toNat then { s with err := .badArg }
        else { s with
          err := .ok,
          slots := s.slots.set k (
            if f = 0 then { s.slot k with param := s.arg0 }
            else if f = 1 then { s.slot k with t0 := s.arg0 }
            else if f = 2 then { s.slot k with nextTimeout := s.arg0 }
            else if f = 3 then { s.slot k with duration := s.arg0 }
            else { s.slot k with pin := s.arg0.setWidth 8 }) })

/-- R113: what validate answers: OK, or the first failure in its order. -/
def Obligations.ValidateFindsFirstFailure : Prop :=
  ∀ (es : List Entry) (init : Nibble),
    (validate es init = none ↔
      es ≠ [] ∧ (∀ e ∈ es, (entryGuard e).toNat ≤ 5 ∧ (entryAction e).toNat ≤ 3 ∧ hasSource es (entryTgt e)) ∧
      hasSource es init) ∧
    (∀ r i, validate es init = some (r, i) ↔
      (es = [] ∧ r = .empty ∧ i = 0) ∨
      (∃ before e after, es = before ++ e :: after ∧ i = before.length ∧ entryFails es e r ∧
        ∀ b ∈ before, ∀ r', ¬ entryFails es b r') ∨
      (es ≠ [] ∧ (∀ e ∈ es, ∀ r', ¬ entryFails es e r') ∧ ¬ hasSource es init ∧ r = .badInitial ∧ i = 0))

/-- R114, R115, R116, R113: COMMIT makes a valid slot ACTIVE, frees an invalid one with the failure in RESULT, or is refused
by the first check that fails. -/
def Obligations.CommitResult : Prop :=
  ∀ (s : State) (n : Nat),
    (noLiveSlot s n → exec (.commit n) s = .next { s with err := .badSlot }) ∧
    ∀ k, named s n k →
      ((s.slot k).sstat = .active → exec (.commit n) s = .next { s with err := .state }) ∧
      ((s.slot k).sstat = .config → 2 ^ 4 ≤ s.arg0.toNat → exec (.commit n) s = .next { s with err := .badArg }) ∧
      ((s.slot k).sstat = .config → s.arg0.toNat < 2 ^ 4 →
        (validate (s.slot k).entries (s.arg0.setWidth 4) = none →
          exec (.commit n) s = .next { s with
            err := .ok,
            slots := s.slots.set k { s.slot k with curState := s.arg0.setWidth 4, sstat := .active } }) ∧
        (∀ r i, validate (s.slot k).entries (s.arg0.setWidth 4) = some (r, i) →
          exec (.commit n) s = .next { s with
            err := .badTable,
            result := BitVec.ofNat 32 (i * 256 + reasonNumber r), slots := s.slots.set k Slot.free }))

/-- R117, R94: DESTROY frees a live slot, whatever its kind, and sends no GPIO request. -/
def Obligations.DestroyFreesSlot : Prop :=
  ∀ (s : State) (n : Nat),
    (noLiveSlot s n → exec (.destroy n) s = .next { s with err := .badSlot }) ∧
    ∀ k, named s n k → exec (.destroy n) s = .next { s with err := .ok, slots := s.slots.set k Slot.free }

/-- R118, R120: RDSTATE and RDTAB read a slot of any status and change nothing but RESULT and STATUS.ERR. -/
def Obligations.DebugReads : Prop :=
  ∀ (s : State) (n i : Nat),
    (4 ≤ n → exec (.rdstate n) s = .next { s with err := .badSlot } ∧
      exec (.rdtab n i) s = .next { s with err := .badSlot }) ∧
    ∀ k : Fin Config.nslot, n = k.val →
      exec (.rdstate n) s = .next { s with result := (s.slot k).curState.setWidth 32, err := .ok } ∧
      (i < (s.slot k).nent.toNat → ∀ h : i < 16,
        exec (.rdtab n i) s = .next { s with result := ((s.slot k).table[i]).setWidth 32, err := .ok }) ∧
      ((s.slot k).nent.toNat ≤ i → exec (.rdtab n i) s = .next { s with err := .badField })

/-- R119, R90, R38, R39: RDFLD reads each field of a slot of any status by its index, KIND and SSTAT as their numbers. -/
def Obligations.RdfldResult : Prop :=
  ∀ (s : State) (n f : Nat),
    (4 ≤ n → exec (.rdfld n f) s = .next { s with err := .badSlot }) ∧
    ∀ k : Fin Config.nslot, n = k.val →
      (8 < f → exec (.rdfld n f) s = .next { s with err := .badField }) ∧
      (f ≤ 8 → exec (.rdfld n f) s = .next { s with
        err := .ok,
        result :=
        if f = 0 then (s.slot k).param
        else if f = 1 then (s.slot k).t0
        else if f = 2 then (s.slot k).nextTimeout
        else if f = 3 then (s.slot k).duration
        else if f = 4 then (s.slot k).pin.setWidth 32
        else if f = 5 then kindNumber (s.slot k).kind
        else if f = 6 then (s.slot k).curState.setWidth 32
        else if f = 7 then (s.slot k).nent.setWidth 32
        else sstatNumber (s.slot k).sstat })

/-! ### Button and blink -/

/-- R126, R123: NEW_BUTTON builds an ACTIVE button in the least FREE slot, or is refused. -/
def Obligations.NewButtonResult : Prop :=
  ∀ s : State,
    (2 ^ 8 ≤ s.arg1.toNat → exec .newButton s = .next { s with err := .badArg }) ∧
    (s.arg1.toNat < 2 ^ 8 → noneFree s → exec .newButton s = .next { s with err := .noSlot }) ∧
    (∀ k, s.arg1.toNat < 2 ^ 8 → leastFree s k → ∃ x : Slot,
      exec .newButton s = .next { s with
        slots := s.slots.set k x, result := BitVec.ofNat 32 k.val, err := .ok } ∧
      x.sstat = .active ∧ x.kind = .button ∧ x.curState = 0#4 ∧ x.param = s.arg0 ∧ x.pin.toNat = s.arg1.toNat ∧
      x.t0 = 0#32 ∧ x.nextTimeout = 0#32 ∧ x.duration = 0#32 ∧ x.nent = 6#5 ∧
      x.table.toList = [0x0121#16, 0x1030#16, 0x1240#16, 0x2332#16, 0x3220#16, 0x3040#16] ++ List.replicate 10 0#16)

/-- R141, R140: NEW_BLINK builds an ACTIVE blink slot in OFF with its pin driven low, or is refused. -/
def Obligations.NewBlinkResult : Prop :=
  ∀ s : State,
    (2 ^ 8 ≤ s.arg1.toNat → exec .newBlink s = .next { s with err := .badArg }) ∧
    (s.arg1.toNat < 2 ^ 8 → noneFree s → exec .newBlink s = .next { s with err := .noSlot }) ∧
    (∀ k, s.arg1.toNat < 2 ^ 8 → leastFree s k → ∃ x : Slot,
      exec .newBlink s = .next { s with
        slots := s.slots.set k x, result := BitVec.ofNat 32 k.val, err := .ok,
        gpioOut := s.gpioOut ++ [.write x.pin false] } ∧
      x.sstat = .active ∧ x.kind = .blink ∧ x.curState = 0#4 ∧ x.param = s.arg0 ∧ x.pin.toNat = s.arg1.toNat ∧
      x.t0 = s.tick ∧ x.nextTimeout = 0#32 ∧ x.duration = 0#32 ∧ x.nent = 2#5 ∧
      x.table.toList = [0x0153#16, 0x1053#16] ++ List.replicate 14 0#16)

/-- R134, R135, R136, R137: the button accessors. -/
def Obligations.ButtonAccessors : Prop :=
  ∀ (s : State) (n : Nat),
    (noLiveSlot s n →
      exec (.getDuration n) s = .next { s with err := .badSlot } ∧
      exec (.resetDuration n) s = .next { s with err := .badSlot } ∧
      exec (.checkActivity n) s = .next { s with err := .badSlot }) ∧
    ∀ k, named s n k →
      ((s.slot k).kind ≠ .button →
        exec (.getDuration n) s = .next { s with err := .kind } ∧
        exec (.resetDuration n) s = .next { s with err := .kind } ∧
        exec (.checkActivity n) s = .next { s with err := .kind }) ∧
      ((s.slot k).kind = .button →
        exec (.getDuration n) s = .next { s with result := (s.slot k).duration, err := .ok } ∧
        exec (.resetDuration n) s = .next { s with
          slots := s.slots.set k { s.slot k with duration := 0#32 }, err := .ok } ∧
        exec (.checkActivity n) s = .next { s with
          err := .ok,
          result := if (s.slot k).curState = 2#4 ∨ (s.slot k).curState = 3#4 then 1#32 else 0#32 })

/-- R127: NEW_BUTTON leaves the slot as ALLOC, six WRTAB, two WRFLD and COMMIT would, but for KIND; RESULT and ERR hold the
slot index and OK; the preset table always passes validation. -/
def Obligations.NewButtonIsBuildSequence : Prop :=
  validate buttonTable 0#4 = none ∧
  ∀ (s : State) (k : Fin Config.nslot) (debounce : Word) (pin : PinId), leastFree s k →
    ∃ t u, exec .newButton { s with arg0 := debounce, arg1 := pin.setWidth 32 } = .next t ∧
      issueEach (buttonBuild k.val debounce pin) s = some u ∧
      u.slot k = { t.slot k with kind := .generic } ∧ (∀ j, j ≠ k → u.slot j = t.slot j) ∧
      (t.slot k).kind = .button ∧ t.result = BitVec.ofNat 32 k.val ∧ t.err = .ok

/-- R124: in a wait state a reverted signal wins over an elapsed timeout, and no field but CUR_STATE changes. -/
def Obligations.RevertWinsOverTimeout : Prop :=
  ∀ (s : State) (k : Fin Config.nslot), (s.slot k).sstat = .active → (s.slot k).entries = buttonTable →
    s.engine = Engine.idle →
    ((s.slot k).curState = 1#4 → s.gpioRead (s.slot k).pin = false →
      exec (.fire k.val) s = .next { s with err := .ok, slots := s.slots.set k { s.slot k with curState := 0#4 } }) ∧
    ((s.slot k).curState = 3#4 → s.gpioRead (s.slot k).pin = true →
      exec (.fire k.val) s = .next { s with err := .ok, slots := s.slots.set k { s.slot k with curState := 2#4 } })

/-- R138 (c): the length of a press, with any FIREs of the held button between its two edges. -/
def Obligations.PressLengthIsMeasured : Prop :=
  ∀ (s u : State) (k : Fin Config.nslot) (t0 t1 : Word) (ts : List Word),
    (s.slot k).sstat = .active → (s.slot k).entries = buttonTable → (s.slot k).curState = 0#4 →
    fireHeld k (t0 :: ts) s = some u → (u.slot k).curState = 2#4 →
    ∃ v, fireAt k t1 false u = some v ∧ (v.slot k).duration = t1 - t0 ∧ (v.slot k).curState = 3#4

/-- R143, R144, R145: a blink slot toggles exactly when half its period has elapsed since T0, and once. -/
def Obligations.BlinkTogglesAfterHalfPeriod : Prop :=
  ∀ (s : State) (k : Fin Config.nslot), (s.slot k).sstat = .active → (s.slot k).entries = blinkTable →
    (s.slot k).curState = 0#4 ∨ (s.slot k).curState = 1#4 → s.engine = Engine.idle →
    exec (.fire k.val) s = .next (
      if (s.tick - (s.slot k).t0).toNat < (s.slot k).param.toNat / 2 then { s with err := .ok }
      else { s with
        err := .ok, gpioOut := s.gpioOut ++ [.toggle (s.slot k).pin],
        slots := s.slots.set k { s.slot k with
          t0 := s.tick, curState := if (s.slot k).curState = 0#4 then 1#4 else 0#4 } })

/-- R142: a blink slot's pin agrees with its state after NEW_BLINK, and every command keeps it so while only that
slot's FIRE drives the pin. -/
def Obligations.BlinkPinAgreesWithState : Prop :=
  (∀ (s t : State) (k : Fin Config.nslot), leastFree s k → s.arg1.toNat < 2 ^ 8 → exec .newBlink s = .next t →
    blinkAgrees t k) ∧
  (∀ (i : Instr) (s t : State) (k : Fin Config.nslot) (out : List GpioRequest),
    s.Inv → i.format = .cmd32 → (s.slot k).kind = .blink → blinkAgrees s k → exec i s = .next t →
    t.gpioOut = s.gpioOut ++ out → (i = .fire k.val ∨ ∀ r ∈ out, requestPin r ≠ (s.slot k).pin) →
    (t.slot k).sstat = .active → blinkAgrees t k)

/-! ### The whole machine -/

/-- R162: no instruction stops the machine: an error is a code, never a trap. -/
def Obligations.InstructionsNeverStop : Prop := ∀ (i : Instr) (s : State), ∃ t, exec i s = .next t

/-- R163, R31: a command that reports an error changes nothing but STATUS.ERR, but for a COMMIT that fails validation. -/
def Obligations.ErrorsChangeOnlyErr : Prop :=
  ∀ (i : Instr) (s t : State), i.format = .cmd32 → exec i s = .next t →
    (t.err = .ok ∨ t = { s with err := t.err } ∨ (t.err = s.err ∧ t = { s with pending := t.pending } ∧ waits i = true) ∨
      (t.err = .badTable ∧ ∃ n, i = .commit n))

/-- R81, R30, R31, R47, R105: what an instruction leaves unchanged, whichever way it ends. -/
def Obligations.InstructionFrames : Prop :=
  ∀ (i : Instr) (s t : State), exec i s = .next t →
    t.tickEn = s.tickEn ∧ t.arg1 = s.arg1 ∧ t.reads = s.reads ∧ t.pins = s.pins ∧ t.inputs = s.inputs ∧
    (i ≠ .delayUntil → t.arg0 = s.arg0) ∧
    (writesTick i = false → t.tick = s.tick) ∧
    (writesResult i = false → t.result = s.result) ∧
    (waits i = false → t.pending = s.pending) ∧
    (sends i = false → t.gpioOut = s.gpioOut) ∧
    (writesSlots i = false → t.slots = s.slots) ∧
    (i.format ≠ .cmd32 → t.err = s.err) ∧
    (i.format ≠ .te16Guard → (∀ n, i ≠ .fire n) → t.engine = s.engine) ∧
    (∃ out, t.gpioOut = s.gpioOut ++ out)

/-- R37: an instruction changes no slot but the one it works on. -/
def Obligations.OtherSlotsUntouched : Prop :=
  ∀ (i : Instr) (s t : State) (k : Fin Config.nslot), exec i s = .next t → ¬ mayWriteSlot i s k → t.slot k = s.slot k

/-- R53, R42, R39: the table, NENT and KIND of an ACTIVE slot never change while it stays ACTIVE. -/
def Obligations.ActiveTableImmutable : Prop :=
  ∀ (s t : State) (k : Fin Config.nslot), step s = .next t →
    (s.slot k).sstat = .active → (t.slot k).sstat = .active →
    (t.slot k).table = (s.slot k).table ∧ (t.slot k).nent = (s.slot k).nent ∧ (t.slot k).kind = (s.slot k).kind

/-- R54: what the invariant says of the states of a button and of a blink slot. -/
def Obligations.PresetStatesStay : Prop :=
  ∀ (s : State) (k : Fin Config.nslot), s.Inv →
    ((s.slot k).kind = .button → (s.slot k).curState.toNat < 4) ∧
    ((s.slot k).kind = .blink → (s.slot k).curState.toNat < 2)

/-- R52, R55, R56, R41, R51: the invariant holds at reset, with no FIRE in progress there (log entry 4). R185: the two premises a
run can start from: State.reset meets `reset_state`, and every state that meets it meets `clean_entry`. -/
def Obligations.ResetIsInvariant : Prop :=
  State.reset.Inv ∧ State.reset.resetState ∧ ∀ s : State, s.resetState → s.cleanEntry

/-- R52, R55, R56, R41, R51: every step of the machine, whatever comes from outside, keeps the invariant. -/
def Obligations.StepKeepsInvariant : Prop := ∀ s t : State, s.Inv → step s = .next t → t.Inv
end

