-- ==== Sys2Proof/Laws/Decode.lean ====
section
/-! SUPPORT. The fields of a command word and of an entry, and the formats decoding answers in. -/

namespace Sys2Proof

@[simp] theorem cmdOp_commandWord (op : Byte) (s f : Nat) : cmdOp (commandWord op s f) = op := by
  apply BitVec.eq_of_getLsbD_eq
  intro i hi
  simp only [cmdOp, commandWord, BitVec.getLsbD_extractLsb', BitVec.getLsbD_append]
  interval_cases i <;> simp

@[simp] theorem cmdSlot_commandWord (op : Byte) (s f : Nat) : cmdSlot (commandWord op s f) = BitVec.ofNat 8 s := by
  apply BitVec.eq_of_getLsbD_eq
  intro i hi
  simp only [cmdSlot, commandWord, BitVec.getLsbD_extractLsb', BitVec.getLsbD_append]
  interval_cases i <;> simp

@[simp] theorem cmdFld_commandWord (op : Byte) (s f : Nat) : cmdFld (commandWord op s f) = BitVec.ofNat 8 f := by
  apply BitVec.eq_of_getLsbD_eq
  intro i hi
  simp only [cmdFld, commandWord, BitVec.getLsbD_extractLsb', BitVec.getLsbD_append]
  interval_cases i <;> simp

@[simp] theorem cmdRsv_commandWord (op : Byte) (s f : Nat) : cmdRsv (commandWord op s f) = 0#8 := by
  apply BitVec.eq_of_getLsbD_eq
  intro i hi
  simp only [cmdRsv, commandWord, BitVec.getLsbD_extractLsb', BitVec.getLsbD_append]
  interval_cases i <;> simp

/-- A word is the concatenation of its four fields. -/
theorem commandWord_fields (c : Word) (h : cmdRsv c = 0#8) :
    commandWord (cmdOp c) (cmdSlot c).toNat (cmdFld c).toNat = c := by
  simp only [commandWord, BitVec.ofNat_toNat, BitVec.setWidth_eq]
  rw [← h]
  apply BitVec.eq_of_getLsbD_eq
  intro i hi
  simp only [cmdOp, cmdSlot, cmdFld, cmdRsv, BitVec.getLsbD_extractLsb', BitVec.getLsbD_append]
  interval_cases i <;> simp

@[simp] theorem entryOperand_high (src tgt g a : Nibble) : entryOperand src tgt g a >>> 16 = 0#32 := by
  apply BitVec.eq_of_getLsbD_eq
  intro i hi
  simp only [entryOperand, BitVec.getLsbD_ushiftRight, BitVec.getLsbD_setWidth]
  simp

@[simp] theorem entryOperand_low (src tgt g a : Nibble) :
    (entryOperand src tgt g a).setWidth 16 = entryWord src tgt g a := by
  simp [entryOperand]

/-- A 32-bit word whose upper half is 0 is its own lower half. -/
theorem setWidth_of_high_zero {w : Word} (h : w >>> 16 = 0#32) : (w.setWidth 16).setWidth 32 = w := by
  apply BitVec.eq_of_toNat_eq
  have : w.toNat / 2 ^ 16 = 0 := by
    have := congrArg BitVec.toNat h
    simpa [BitVec.toNat_ushiftRight, Nat.shiftRight_eq_div_pow] using this
  simp only [BitVec.toNat_setWidth]
  have := w.isLt
  omega

/-- An entry is the concatenation of its four fields. -/
theorem entryWord_fields (e : Entry) : entryWord (entrySrc e) (entryTgt e) (entryGuard e) (entryAction e) = e := by
  apply BitVec.eq_of_getLsbD_eq
  intro i hi
  simp only [entryWord, entrySrc, entryTgt, entryGuard, entryAction, BitVec.getLsbD_extractLsb', BitVec.getLsbD_append]
  interval_cases i <;> simp

/-- A command word decodes to a command, never to a row of a table entry. -/
theorem decodeCommand_format {c : Word} {i : Instr} (h : decodeCommand c = .instr i) : i.format = .cmd32 := by
  unfold decodeCommand at h
  split at h
  · cases h
  · rename_i j hj
    have hf : j.format = .cmd32 := by
      unfold commandOf at hj
      split at hj <;> cases hj <;> rfl
    split at h
    · cases h
    · split at h
      · cases h
      · split at h
        · cases h
        · cases h; exact hf

end Sys2Proof
end

