-- ==== Sys2Proof/Laws/State.lean ====
section
/-! SUPPORT. One lemma per field and update of the state. -/

namespace Sys2Proof.Machine

/-! ### The block's state

A machine is the block's state and what stands beside it (00_scope.md R24); these say which operations reach the block. -/

theorem State.raise_toBlock (s : State) (e : Err) : (s.raise e).toBlock = { s.toBlock with err := e } := rfl
theorem State.ok_toBlock (s : State) : s.ok.toBlock = { s.toBlock with err := .ok } := rfl
theorem State.setResult_toBlock (s : State) (v : Word) : (s.setResult v).toBlock = { s.toBlock with result := v } := rfl
theorem State.setSlot_toBlock (s : State) (k : Fin Config.nslot) (x : Slot) :
    (s.setSlot k x).toBlock = { s.toBlock with slots := s.slots.set k x } := rfl
theorem State.sendGpio_toBlock (s : State) (r : GpioRequest) : (s.sendGpio r).toBlock = s.toBlock := rfl
theorem State.setPin_toBlock (s : State) (p : PinId) (b : Bool) : (s.setPin p b).toBlock = s.toBlock := rfl
theorem State.beginFire_toBlock (s : State) (k : Fin Config.nslot) : (s.beginFire k).toBlock = s.toBlock := rfl
@[simp] theorem State.endFire_toBlock (s : State) : s.endFire.toBlock = s.toBlock := rfl
@[simp] theorem State.endFire_toEnvironment (s : State) : s.endFire.toEnvironment = s.toEnvironment := rfl
theorem State.resetBlock_toEnvironment (s : State) : s.resetBlock.toEnvironment = s.toEnvironment := rfl
theorem State.setVerdict_toBlock (s : State) (b : Bool) : (s.setVerdict b).toBlock = s.toBlock := rfl
theorem State.resetBlock_toBlock (s : State) : s.resetBlock.toBlock = Block.reset := rfl
theorem State.reset_toBlock : State.reset.toBlock = Block.reset := rfl

/-! ### State.raise -/

@[simp] theorem State.raise_tick (s : State) (e : Err) : (s.raise e).tick = s.tick := rfl
@[simp] theorem State.raise_tickEn (s : State) (e : Err) : (s.raise e).tickEn = s.tickEn := rfl
@[simp] theorem State.raise_err (s : State) (e : Err) : (s.raise e).err = e := rfl
@[simp] theorem State.raise_arg0 (s : State) (e : Err) : (s.raise e).arg0 = s.arg0 := rfl
@[simp] theorem State.raise_arg1 (s : State) (e : Err) : (s.raise e).arg1 = s.arg1 := rfl
@[simp] theorem State.raise_result (s : State) (e : Err) : (s.raise e).result = s.result := rfl
@[simp] theorem State.raise_slots (s : State) (e : Err) : (s.raise e).slots = s.slots := rfl
@[simp] theorem State.raise_pending (s : State) (e : Err) : (s.raise e).pending = s.pending := rfl
@[simp] theorem State.raise_engine (s : State) (e : Err) : (s.raise e).engine = s.engine := rfl
@[simp] theorem State.raise_gpioOut (s : State) (e : Err) : (s.raise e).gpioOut = s.gpioOut := rfl
@[simp] theorem State.raise_reads (s : State) (e : Err) : (s.raise e).reads = s.reads := rfl
@[simp] theorem State.raise_pins (s : State) (e : Err) : (s.raise e).pins = s.pins := rfl
@[simp] theorem State.raise_inputs (s : State) (e : Err) : (s.raise e).inputs = s.inputs := rfl
@[simp] theorem State.raise_slot (s : State) (e : Err) (j : Fin Config.nslot) : (s.raise e).slot j = s.slot j := rfl

/-! ### State.ok -/

@[simp] theorem State.ok_tick (s : State) : (s.ok).tick = s.tick := rfl
@[simp] theorem State.ok_tickEn (s : State) : (s.ok).tickEn = s.tickEn := rfl
@[simp] theorem State.ok_err (s : State) : (s.ok).err = .ok := rfl
@[simp] theorem State.ok_arg0 (s : State) : (s.ok).arg0 = s.arg0 := rfl
@[simp] theorem State.ok_arg1 (s : State) : (s.ok).arg1 = s.arg1 := rfl
@[simp] theorem State.ok_result (s : State) : (s.ok).result = s.result := rfl
@[simp] theorem State.ok_slots (s : State) : (s.ok).slots = s.slots := rfl
@[simp] theorem State.ok_pending (s : State) : (s.ok).pending = s.pending := rfl
@[simp] theorem State.ok_engine (s : State) : (s.ok).engine = s.engine := rfl
@[simp] theorem State.ok_gpioOut (s : State) : (s.ok).gpioOut = s.gpioOut := rfl
@[simp] theorem State.ok_reads (s : State) : (s.ok).reads = s.reads := rfl
@[simp] theorem State.ok_pins (s : State) : (s.ok).pins = s.pins := rfl
@[simp] theorem State.ok_inputs (s : State) : (s.ok).inputs = s.inputs := rfl
@[simp] theorem State.ok_slot (s : State) (j : Fin Config.nslot) : (s.ok).slot j = s.slot j := rfl

/-! ### State.setResult -/

@[simp] theorem State.setResult_tick (s : State) (v : Word) : (s.setResult v).tick = s.tick := rfl
@[simp] theorem State.setResult_tickEn (s : State) (v : Word) : (s.setResult v).tickEn = s.tickEn := rfl
@[simp] theorem State.setResult_err (s : State) (v : Word) : (s.setResult v).err = s.err := rfl
@[simp] theorem State.setResult_arg0 (s : State) (v : Word) : (s.setResult v).arg0 = s.arg0 := rfl
@[simp] theorem State.setResult_arg1 (s : State) (v : Word) : (s.setResult v).arg1 = s.arg1 := rfl
@[simp] theorem State.setResult_result (s : State) (v : Word) : (s.setResult v).result = v := rfl
@[simp] theorem State.setResult_slots (s : State) (v : Word) : (s.setResult v).slots = s.slots := rfl
@[simp] theorem State.setResult_pending (s : State) (v : Word) : (s.setResult v).pending = s.pending := rfl
@[simp] theorem State.setResult_engine (s : State) (v : Word) : (s.setResult v).engine = s.engine := rfl
@[simp] theorem State.setResult_gpioOut (s : State) (v : Word) : (s.setResult v).gpioOut = s.gpioOut := rfl
@[simp] theorem State.setResult_reads (s : State) (v : Word) : (s.setResult v).reads = s.reads := rfl
@[simp] theorem State.setResult_pins (s : State) (v : Word) : (s.setResult v).pins = s.pins := rfl
@[simp] theorem State.setResult_inputs (s : State) (v : Word) : (s.setResult v).inputs = s.inputs := rfl
@[simp] theorem State.setResult_slot (s : State) (v : Word) (j : Fin Config.nslot) : (s.setResult v).slot j = s.slot j := rfl

/-! ### State.setSlot -/

@[simp] theorem State.setSlot_tick (s : State) (k : Fin Config.nslot) (x : Slot) : (s.setSlot k x).tick = s.tick := rfl
@[simp] theorem State.setSlot_tickEn (s : State) (k : Fin Config.nslot) (x : Slot) : (s.setSlot k x).tickEn = s.tickEn := rfl
@[simp] theorem State.setSlot_err (s : State) (k : Fin Config.nslot) (x : Slot) : (s.setSlot k x).err = s.err := rfl
@[simp] theorem State.setSlot_arg0 (s : State) (k : Fin Config.nslot) (x : Slot) : (s.setSlot k x).arg0 = s.arg0 := rfl
@[simp] theorem State.setSlot_arg1 (s : State) (k : Fin Config.nslot) (x : Slot) : (s.setSlot k x).arg1 = s.arg1 := rfl
@[simp] theorem State.setSlot_result (s : State) (k : Fin Config.nslot) (x : Slot) : (s.setSlot k x).result = s.result := rfl
@[simp] theorem State.setSlot_slots (s : State) (k : Fin Config.nslot) (x : Slot) : (s.setSlot k x).slots = s.slots.set k x := rfl
@[simp] theorem State.setSlot_pending (s : State) (k : Fin Config.nslot) (x : Slot) : (s.setSlot k x).pending = s.pending := rfl
@[simp] theorem State.setSlot_engine (s : State) (k : Fin Config.nslot) (x : Slot) : (s.setSlot k x).engine = s.engine := rfl
@[simp] theorem State.setSlot_gpioOut (s : State) (k : Fin Config.nslot) (x : Slot) : (s.setSlot k x).gpioOut = s.gpioOut := rfl
@[simp] theorem State.setSlot_reads (s : State) (k : Fin Config.nslot) (x : Slot) : (s.setSlot k x).reads = s.reads := rfl
@[simp] theorem State.setSlot_pins (s : State) (k : Fin Config.nslot) (x : Slot) : (s.setSlot k x).pins = s.pins := rfl
@[simp] theorem State.setSlot_inputs (s : State) (k : Fin Config.nslot) (x : Slot) : (s.setSlot k x).inputs = s.inputs := rfl

/-! ### State.clearSlot -/

@[simp] theorem State.clearSlot_tick (s : State) (k : Fin Config.nslot) : (s.clearSlot k).tick = s.tick := rfl
@[simp] theorem State.clearSlot_tickEn (s : State) (k : Fin Config.nslot) : (s.clearSlot k).tickEn = s.tickEn := rfl
@[simp] theorem State.clearSlot_err (s : State) (k : Fin Config.nslot) : (s.clearSlot k).err = s.err := rfl
@[simp] theorem State.clearSlot_arg0 (s : State) (k : Fin Config.nslot) : (s.clearSlot k).arg0 = s.arg0 := rfl
@[simp] theorem State.clearSlot_arg1 (s : State) (k : Fin Config.nslot) : (s.clearSlot k).arg1 = s.arg1 := rfl
@[simp] theorem State.clearSlot_result (s : State) (k : Fin Config.nslot) : (s.clearSlot k).result = s.result := rfl
@[simp] theorem State.clearSlot_slots (s : State) (k : Fin Config.nslot) : (s.clearSlot k).slots = s.slots.set k Slot.free := rfl
@[simp] theorem State.clearSlot_pending (s : State) (k : Fin Config.nslot) : (s.clearSlot k).pending = s.pending := rfl
@[simp] theorem State.clearSlot_engine (s : State) (k : Fin Config.nslot) : (s.clearSlot k).engine = s.engine := rfl
@[simp] theorem State.clearSlot_gpioOut (s : State) (k : Fin Config.nslot) : (s.clearSlot k).gpioOut = s.gpioOut := rfl
@[simp] theorem State.clearSlot_reads (s : State) (k : Fin Config.nslot) : (s.clearSlot k).reads = s.reads := rfl
@[simp] theorem State.clearSlot_pins (s : State) (k : Fin Config.nslot) : (s.clearSlot k).pins = s.pins := rfl
@[simp] theorem State.clearSlot_inputs (s : State) (k : Fin Config.nslot) : (s.clearSlot k).inputs = s.inputs := rfl

/-! ### State.sendGpio -/

@[simp] theorem State.sendGpio_tick (s : State) (r : GpioRequest) : (s.sendGpio r).tick = s.tick := rfl
@[simp] theorem State.sendGpio_tickEn (s : State) (r : GpioRequest) : (s.sendGpio r).tickEn = s.tickEn := rfl
@[simp] theorem State.sendGpio_err (s : State) (r : GpioRequest) : (s.sendGpio r).err = s.err := rfl
@[simp] theorem State.sendGpio_arg0 (s : State) (r : GpioRequest) : (s.sendGpio r).arg0 = s.arg0 := rfl
@[simp] theorem State.sendGpio_arg1 (s : State) (r : GpioRequest) : (s.sendGpio r).arg1 = s.arg1 := rfl
@[simp] theorem State.sendGpio_result (s : State) (r : GpioRequest) : (s.sendGpio r).result = s.result := rfl
@[simp] theorem State.sendGpio_slots (s : State) (r : GpioRequest) : (s.sendGpio r).slots = s.slots := rfl
@[simp] theorem State.sendGpio_pending (s : State) (r : GpioRequest) : (s.sendGpio r).pending = s.pending := rfl
@[simp] theorem State.sendGpio_engine (s : State) (r : GpioRequest) : (s.sendGpio r).engine = s.engine := rfl
@[simp] theorem State.sendGpio_gpioOut (s : State) (r : GpioRequest) : (s.sendGpio r).gpioOut = s.gpioOut ++ [r] := rfl
@[simp] theorem State.sendGpio_reads (s : State) (r : GpioRequest) : (s.sendGpio r).reads = s.reads := rfl
@[simp] theorem State.sendGpio_pins (s : State) (r : GpioRequest) : (s.sendGpio r).pins = s.pins := rfl
@[simp] theorem State.sendGpio_inputs (s : State) (r : GpioRequest) : (s.sendGpio r).inputs = s.inputs := rfl
@[simp] theorem State.sendGpio_slot (s : State) (r : GpioRequest) (j : Fin Config.nslot) : (s.sendGpio r).slot j = s.slot j := rfl

/-! ### State.setPin -/

@[simp] theorem State.setPin_tick (s : State) (p : PinId) (b : Bool) : (s.setPin p b).tick = s.tick := rfl
@[simp] theorem State.setPin_tickEn (s : State) (p : PinId) (b : Bool) : (s.setPin p b).tickEn = s.tickEn := rfl
@[simp] theorem State.setPin_err (s : State) (p : PinId) (b : Bool) : (s.setPin p b).err = s.err := rfl
@[simp] theorem State.setPin_arg0 (s : State) (p : PinId) (b : Bool) : (s.setPin p b).arg0 = s.arg0 := rfl
@[simp] theorem State.setPin_arg1 (s : State) (p : PinId) (b : Bool) : (s.setPin p b).arg1 = s.arg1 := rfl
@[simp] theorem State.setPin_result (s : State) (p : PinId) (b : Bool) : (s.setPin p b).result = s.result := rfl
@[simp] theorem State.setPin_slots (s : State) (p : PinId) (b : Bool) : (s.setPin p b).slots = s.slots := rfl
@[simp] theorem State.setPin_pending (s : State) (p : PinId) (b : Bool) : (s.setPin p b).pending = s.pending := rfl
@[simp] theorem State.setPin_engine (s : State) (p : PinId) (b : Bool) : (s.setPin p b).engine = s.engine := rfl
@[simp] theorem State.setPin_gpioOut (s : State) (p : PinId) (b : Bool) : (s.setPin p b).gpioOut = s.gpioOut := rfl
@[simp] theorem State.setPin_reads (s : State) (p : PinId) (b : Bool) : (s.setPin p b).reads = s.reads := rfl
@[simp] theorem State.setPin_inputs (s : State) (p : PinId) (b : Bool) : (s.setPin p b).inputs = s.inputs := rfl
@[simp] theorem State.setPin_slot (s : State) (p : PinId) (b : Bool) (j : Fin Config.nslot) : (s.setPin p b).slot j = s.slot j := rfl

/-! ### State.beginFire -/

@[simp] theorem State.beginFire_tick (s : State) (k : Fin Config.nslot) : (s.beginFire k).tick = s.tick := rfl
@[simp] theorem State.beginFire_tickEn (s : State) (k : Fin Config.nslot) : (s.beginFire k).tickEn = s.tickEn := rfl
@[simp] theorem State.beginFire_err (s : State) (k : Fin Config.nslot) : (s.beginFire k).err = s.err := rfl
@[simp] theorem State.beginFire_arg0 (s : State) (k : Fin Config.nslot) : (s.beginFire k).arg0 = s.arg0 := rfl
@[simp] theorem State.beginFire_arg1 (s : State) (k : Fin Config.nslot) : (s.beginFire k).arg1 = s.arg1 := rfl
@[simp] theorem State.beginFire_result (s : State) (k : Fin Config.nslot) : (s.beginFire k).result = s.result := rfl
@[simp] theorem State.beginFire_slots (s : State) (k : Fin Config.nslot) : (s.beginFire k).slots = s.slots := rfl
@[simp] theorem State.beginFire_pending (s : State) (k : Fin Config.nslot) : (s.beginFire k).pending = s.pending := rfl
@[simp] theorem State.beginFire_engine (s : State) (k : Fin Config.nslot) : (s.beginFire k).engine = { slot := k, tick := s.tick, level := s.gpioRead (s.slot k).pin, verdict := false } := rfl
@[simp] theorem State.beginFire_gpioOut (s : State) (k : Fin Config.nslot) : (s.beginFire k).gpioOut = s.gpioOut := rfl
@[simp] theorem State.beginFire_reads (s : State) (k : Fin Config.nslot) : (s.beginFire k).reads = s.reads := rfl
@[simp] theorem State.beginFire_pins (s : State) (k : Fin Config.nslot) : (s.beginFire k).pins = s.pins := rfl
@[simp] theorem State.beginFire_inputs (s : State) (k : Fin Config.nslot) : (s.beginFire k).inputs = s.inputs := rfl
@[simp] theorem State.beginFire_slot (s : State) (k : Fin Config.nslot) (j : Fin Config.nslot) : (s.beginFire k).slot j = s.slot j := rfl

/-! ### State.endFire -/

@[simp] theorem State.endFire_tick (s : State) : (s.endFire).tick = s.tick := rfl
@[simp] theorem State.endFire_tickEn (s : State) : (s.endFire).tickEn = s.tickEn := rfl
@[simp] theorem State.endFire_err (s : State) : (s.endFire).err = s.err := rfl
@[simp] theorem State.endFire_arg0 (s : State) : (s.endFire).arg0 = s.arg0 := rfl
@[simp] theorem State.endFire_arg1 (s : State) : (s.endFire).arg1 = s.arg1 := rfl
@[simp] theorem State.endFire_result (s : State) : (s.endFire).result = s.result := rfl
@[simp] theorem State.endFire_slots (s : State) : (s.endFire).slots = s.slots := rfl
@[simp] theorem State.endFire_pending (s : State) : (s.endFire).pending = s.pending := rfl
@[simp] theorem State.endFire_engine (s : State) : (s.endFire).engine = Engine.idle := rfl
@[simp] theorem State.endFire_gpioOut (s : State) : (s.endFire).gpioOut = s.gpioOut := rfl
@[simp] theorem State.endFire_reads (s : State) : (s.endFire).reads = s.reads := rfl
@[simp] theorem State.endFire_pins (s : State) : (s.endFire).pins = s.pins := rfl
@[simp] theorem State.endFire_inputs (s : State) : (s.endFire).inputs = s.inputs := rfl
@[simp] theorem State.endFire_slot (s : State) (j : Fin Config.nslot) : (s.endFire).slot j = s.slot j := rfl

/-! ### State.setVerdict -/

@[simp] theorem State.setVerdict_tick (s : State) (b : Bool) : (s.setVerdict b).tick = s.tick := rfl
@[simp] theorem State.setVerdict_tickEn (s : State) (b : Bool) : (s.setVerdict b).tickEn = s.tickEn := rfl
@[simp] theorem State.setVerdict_err (s : State) (b : Bool) : (s.setVerdict b).err = s.err := rfl
@[simp] theorem State.setVerdict_arg0 (s : State) (b : Bool) : (s.setVerdict b).arg0 = s.arg0 := rfl
@[simp] theorem State.setVerdict_arg1 (s : State) (b : Bool) : (s.setVerdict b).arg1 = s.arg1 := rfl
@[simp] theorem State.setVerdict_result (s : State) (b : Bool) : (s.setVerdict b).result = s.result := rfl
@[simp] theorem State.setVerdict_slots (s : State) (b : Bool) : (s.setVerdict b).slots = s.slots := rfl
@[simp] theorem State.setVerdict_pending (s : State) (b : Bool) : (s.setVerdict b).pending = s.pending := rfl
@[simp] theorem State.setVerdict_engine (s : State) (b : Bool) : (s.setVerdict b).engine = { s.engine with verdict := b } := rfl
@[simp] theorem State.setVerdict_gpioOut (s : State) (b : Bool) : (s.setVerdict b).gpioOut = s.gpioOut := rfl
@[simp] theorem State.setVerdict_reads (s : State) (b : Bool) : (s.setVerdict b).reads = s.reads := rfl
@[simp] theorem State.setVerdict_pins (s : State) (b : Bool) : (s.setVerdict b).pins = s.pins := rfl
@[simp] theorem State.setVerdict_inputs (s : State) (b : Bool) : (s.setVerdict b).inputs = s.inputs := rfl
@[simp] theorem State.setVerdict_slot (s : State) (b : Bool) (j : Fin Config.nslot) : (s.setVerdict b).slot j = s.slot j := rfl

/-! ### State.setFired -/

@[simp] theorem State.setFired_tick (s : State) (x : Slot) : (s.setFired x).tick = s.tick := rfl
@[simp] theorem State.setFired_tickEn (s : State) (x : Slot) : (s.setFired x).tickEn = s.tickEn := rfl
@[simp] theorem State.setFired_err (s : State) (x : Slot) : (s.setFired x).err = s.err := rfl
@[simp] theorem State.setFired_arg0 (s : State) (x : Slot) : (s.setFired x).arg0 = s.arg0 := rfl
@[simp] theorem State.setFired_arg1 (s : State) (x : Slot) : (s.setFired x).arg1 = s.arg1 := rfl
@[simp] theorem State.setFired_result (s : State) (x : Slot) : (s.setFired x).result = s.result := rfl
@[simp] theorem State.setFired_slots (s : State) (x : Slot) : (s.setFired x).slots = s.slots.set s.engine.slot x := rfl
@[simp] theorem State.setFired_pending (s : State) (x : Slot) : (s.setFired x).pending = s.pending := rfl
@[simp] theorem State.setFired_engine (s : State) (x : Slot) : (s.setFired x).engine = s.engine := rfl
@[simp] theorem State.setFired_gpioOut (s : State) (x : Slot) : (s.setFired x).gpioOut = s.gpioOut := rfl
@[simp] theorem State.setFired_reads (s : State) (x : Slot) : (s.setFired x).reads = s.reads := rfl
@[simp] theorem State.setFired_pins (s : State) (x : Slot) : (s.setFired x).pins = s.pins := rfl
@[simp] theorem State.setFired_inputs (s : State) (x : Slot) : (s.setFired x).inputs = s.inputs := rfl

/-! ### State.setCurState -/

@[simp] theorem State.setCurState_tick (s : State) (q : Nibble) : (s.setCurState q).tick = s.tick := rfl
@[simp] theorem State.setCurState_tickEn (s : State) (q : Nibble) : (s.setCurState q).tickEn = s.tickEn := rfl
@[simp] theorem State.setCurState_err (s : State) (q : Nibble) : (s.setCurState q).err = s.err := rfl
@[simp] theorem State.setCurState_arg0 (s : State) (q : Nibble) : (s.setCurState q).arg0 = s.arg0 := rfl
@[simp] theorem State.setCurState_arg1 (s : State) (q : Nibble) : (s.setCurState q).arg1 = s.arg1 := rfl
@[simp] theorem State.setCurState_result (s : State) (q : Nibble) : (s.setCurState q).result = s.result := rfl
@[simp] theorem State.setCurState_slots (s : State) (q : Nibble) : (s.setCurState q).slots = s.slots.set s.engine.slot { s.fired with curState := q } := rfl
@[simp] theorem State.setCurState_pending (s : State) (q : Nibble) : (s.setCurState q).pending = s.pending := rfl
@[simp] theorem State.setCurState_engine (s : State) (q : Nibble) : (s.setCurState q).engine = s.engine := rfl
@[simp] theorem State.setCurState_gpioOut (s : State) (q : Nibble) : (s.setCurState q).gpioOut = s.gpioOut := rfl
@[simp] theorem State.setCurState_reads (s : State) (q : Nibble) : (s.setCurState q).reads = s.reads := rfl
@[simp] theorem State.setCurState_pins (s : State) (q : Nibble) : (s.setCurState q).pins = s.pins := rfl
@[simp] theorem State.setCurState_inputs (s : State) (q : Nibble) : (s.setCurState q).inputs = s.inputs := rfl

end Sys2Proof.Machine
end

