-- ==== Sys2Proof/Laws/Ops.lean ====
section
/-! SUPPORT. What each shared operation can do: slots, operand checks, the table memory, the inputs. -/

namespace Sys2Proof.Machine

/-! ### Slots -/

@[simp] theorem State.slot_setSlot_self (s : State) (k : Fin Config.nslot) (x : Slot) :
    (s.setSlot k x).slot k = x := by
  simp [State.slot, State.setSlot, Vector.get_eq_getElem]

theorem State.slot_setSlot_ne (s : State) {k j : Fin Config.nslot} (x : Slot) (h : j ≠ k) :
    (s.setSlot k x).slot j = s.slot j := by
  have h' : k.val ≠ j.val := fun e => h (Fin.ext e.symm)
  simp [State.slot, State.setSlot, Vector.get_eq_getElem, h']

theorem State.slot_setSlot (s : State) (k j : Fin Config.nslot) (x : Slot) :
    (s.setSlot k x).slot j = if j = k then x else s.slot j := by
  split
  · subst j; exact s.slot_setSlot_self k x
  · rename_i h; exact s.slot_setSlot_ne x h

@[simp] theorem State.slot_set_slots_self (v : Vector Slot Config.nslot) (k : Fin Config.nslot) (x : Slot) :
    (v.set k x).get k = x := by
  simp [Vector.get_eq_getElem]

/-- Two slot memories are equal when every slot is. -/
theorem slots_ext {s t : State} (h : ∀ k, s.slot k = t.slot k) : s.slots = t.slots := by
  apply Vector.ext
  intro i hi
  exact h ⟨i, hi⟩

/-- Writing back what a slot holds changes nothing. -/
@[simp] theorem State.set_slot_self (s : State) (k : Fin Config.nslot) : s.slots.set k (s.slot k) = s.slots := by
  have h : (s.setSlot k (s.slot k)).slots = s.slots := by
    apply slots_ext
    intro j
    rw [State.slot_setSlot]
    split
    · subst j; rfl
    · rfl
  exact h

theorem State.setSlot_slot (s : State) (k : Fin Config.nslot) : s.setSlot k (s.slot k) = s := by
  simp only [State.setSlot, State.set_slot_self]

/-! ### Slot operands -/

theorem slotInRange_val (k : Fin Config.nslot) : slotInRange k.val = .ok k := by
  simp [slotInRange]

theorem slotInRange_eq_ok {n : Nat} {k : Fin Config.nslot} : slotInRange n = .ok k ↔ n = k.val := by
  constructor
  · intro h
    unfold slotInRange at h
    split at h
    · cases h; rfl
    · cases h
  · rintro rfl; exact slotInRange_val k

theorem slotInRange_eq_error {n : Nat} {e : Err} : slotInRange n = .error e ↔ 4 ≤ n ∧ e = .badSlot := by
  unfold slotInRange
  split
  · rename_i h
    simp only [reduceCtorEq, false_iff]
    have : n < 4 := h
    omega
  · rename_i h
    have : ¬ n < 4 := h
    simp only [Except.error.injEq]
    constructor
    · rintro rfl; exact ⟨by omega, rfl⟩
    · rintro ⟨_, rfl⟩; rfl

theorem State.liveSlot_eq_ok {s : State} {n : Nat} {k : Fin Config.nslot} :
    s.liveSlot n = .ok k ↔ n = k.val ∧ (s.slot k).sstat ≠ .free := by
  unfold State.liveSlot
  constructor
  · intro h
    split at h
    · cases h
    · rename_i j hj
      split at h
      · cases h
      · rename_i hf
        cases h
        exact ⟨slotInRange_eq_ok.mp hj, hf⟩
  · rintro ⟨rfl, hf⟩
    simp [slotInRange_val, hf]

theorem State.liveSlot_eq_error {s : State} {n : Nat} {e : Err} :
    s.liveSlot n = .error e ↔ e = .badSlot ∧ ∀ k : Fin Config.nslot, n = k.val → (s.slot k).sstat = .free := by
  constructor
  · intro h
    unfold State.liveSlot at h
    split at h
    · rename_i e' he
      cases h
      obtain ⟨hn, rfl⟩ := slotInRange_eq_error.mp he
      refine ⟨rfl, fun k hk => ?_⟩
      have := k.isLt
      have : k.val < 4 := this
      omega
    · rename_i j hj
      split at h
      · rename_i hf
        cases h
        refine ⟨rfl, fun k hk => ?_⟩
        have hjk : k = j := by
          apply Fin.ext
          rw [← hk, slotInRange_eq_ok.mp hj]
        rw [hjk]; exact hf
      · cases h
  · rintro ⟨rfl, h⟩
    unfold State.liveSlot
    split
    · rename_i e' he
      rw [(slotInRange_eq_error.mp he).2]
    · rename_i j hj
      rw [if_pos (h j (slotInRange_eq_ok.mp hj))]

theorem State.configSlot_eq_ok {s : State} {n : Nat} {k : Fin Config.nslot} :
    s.configSlot n = .ok k ↔ n = k.val ∧ (s.slot k).sstat = .config := by
  unfold State.configSlot
  constructor
  · intro h
    split at h
    · cases h
    · rename_i j hj
      split at h
      · cases h
      · rename_i ha
        cases h
        obtain ⟨hn, hf⟩ := State.liveSlot_eq_ok.mp hj
        refine ⟨hn, ?_⟩
        cases hc : (s.slot k).sstat <;> simp_all
  · rintro ⟨rfl, hc⟩
    have : s.liveSlot k.val = .ok k := State.liveSlot_eq_ok.mpr ⟨rfl, by simp [hc]⟩
    simp [this, hc]

theorem State.configSlot_eq_error {s : State} {n : Nat} {e : Err} :
    s.configSlot n = .error e ↔
      (e = .badSlot ∧ ∀ k : Fin Config.nslot, n = k.val → (s.slot k).sstat = .free) ∨
      (e = .state ∧ ∃ k : Fin Config.nslot, n = k.val ∧ (s.slot k).sstat = .active) := by
  constructor
  · intro h
    unfold State.configSlot at h
    split at h
    · rename_i e' he
      cases h
      exact .inl (State.liveSlot_eq_error.mp he)
    · rename_i j hj
      split at h
      · rename_i ha
        cases h
        exact .inr ⟨rfl, j, (State.liveSlot_eq_ok.mp hj).1, ha⟩
      · cases h
  · rintro (h | ⟨rfl, k, rfl, ha⟩)
    · unfold State.configSlot
      rw [State.liveSlot_eq_error.mpr h]
    · have : s.liveSlot k.val = .ok k := State.liveSlot_eq_ok.mpr ⟨rfl, by simp [ha]⟩
      simp [State.configSlot, this, ha]

theorem State.activeSlot_eq_ok {s : State} {n : Nat} {k : Fin Config.nslot} :
    s.activeSlot n = .ok k ↔ n = k.val ∧ (s.slot k).sstat = .active := by
  unfold State.activeSlot
  constructor
  · intro h
    split at h
    · cases h
    · rename_i j hj
      split at h
      · cases h
      · rename_i ha
        cases h
        obtain ⟨hn, hf⟩ := State.liveSlot_eq_ok.mp hj
        refine ⟨hn, ?_⟩
        cases hc : (s.slot k).sstat <;> simp_all
  · rintro ⟨rfl, hc⟩
    have : s.liveSlot k.val = .ok k := State.liveSlot_eq_ok.mpr ⟨rfl, by simp [hc]⟩
    simp [this, hc]

theorem State.buttonSlot_eq_ok {s : State} {n : Nat} {k : Fin Config.nslot} :
    s.buttonSlot n = .ok k ↔ n = k.val ∧ (s.slot k).sstat ≠ .free ∧ (s.slot k).kind = .button := by
  unfold State.buttonSlot
  constructor
  · intro h
    split at h
    · cases h
    · rename_i j hj
      split at h
      · rename_i ha
        cases h
        obtain ⟨hn, hf⟩ := State.liveSlot_eq_ok.mp hj
        exact ⟨hn, hf, ha⟩
      · cases h
  · rintro ⟨rfl, hf, hc⟩
    have : s.liveSlot k.val = .ok k := State.liveSlot_eq_ok.mpr ⟨rfl, hf⟩
    simp [this, hc]

/-- The slot an allocation takes is FREE and no lesser slot is (41_engine.md R110). -/
theorem State.firstFree_eq_some {s : State} {k : Fin Config.nslot} :
    s.firstFree = some k ↔ (s.slot k).sstat = .free ∧ ∀ j, j < k → (s.slot j).sstat ≠ .free := by
  have lt_four : ∀ j : Fin Config.nslot, j = 0 ∨ j = 1 ∨ j = 2 ∨ j = 3 := by decide
  unfold State.firstFree slotIndices
  simp only [List.find?]
  by_cases h0 : (s.slot 0).sstat = .free <;> by_cases h1 : (s.slot 1).sstat = .free <;>
    by_cases h2 : (s.slot 2).sstat = .free <;> by_cases h3 : (s.slot 3).sstat = .free <;>
    simp only [h0, h1, h2, h3, decide_true, decide_false] <;>
    constructor <;> intro h
  all_goals first
    | (cases h
       refine ⟨by assumption, fun j hj => ?_⟩
       rcases lt_four j with rfl | rfl | rfl | rfl <;> first | assumption | exact absurd hj (by decide))
    | (exfalso; cases h; done)
    | (obtain ⟨hf, hl⟩ := h
       rcases lt_four k with rfl | rfl | rfl | rfl <;>
         first
           | rfl
           | (exfalso; exact absurd hf (by assumption))
           | (exfalso; exact hl 0 (by decide) h0)
           | (exfalso; exact hl 1 (by decide) h1)
           | (exfalso; exact hl 2 (by decide) h2))

theorem State.firstFree_eq_none {s : State} : s.firstFree = none ↔ ∀ k, (s.slot k).sstat ≠ .free := by
  unfold State.firstFree slotIndices
  constructor
  · intro h k
    have lt_four : ∀ j : Fin Config.nslot, j = 0 ∨ j = 1 ∨ j = 2 ∨ j = 3 := by decide
    have hk := List.find?_eq_none.mp h k (by rcases lt_four k with rfl | rfl | rfl | rfl <;> simp)
    simpa using hk
  · intro h
    apply List.find?_eq_none.mpr
    intro k _
    simpa using h k

/-- An argument register's bits from `n` up are 0. -/
theorem fitsIn_iff {n : Nat} {v : Word} : fitsIn n v = true ↔ v.toNat < 2 ^ n := by
  unfold fitsIn
  rw [decide_eq_true_iff, ← BitVec.toNat_inj, BitVec.toNat_ushiftRight, Nat.shiftRight_eq_div_pow]
  simp [Nat.div_eq_zero_iff]

/-! ### The table memory -/

theorem Slot.entries_length_le (x : Slot) : x.entries.length ≤ 16 := by
  simp [Slot.entries]

theorem Slot.free_tableWf : Slot.free.tableWf = true := by decide

/-- The canonical form in words: at most 16 valid entries, and 0 at every index past them. -/
theorem Slot.tableWf_iff {x : Slot} :
    x.tableWf = true ↔ x.nent.toNat ≤ 16 ∧ ∀ i (h : i < 16), x.nent.toNat ≤ i → x.table[i] = 0#16 := by
  unfold Slot.tableWf
  rw [Bool.and_eq_true, decide_eq_true_iff, List.all_eq_true]
  constructor
  · rintro ⟨hn, h⟩
    refine ⟨hn, fun i hi hni => ?_⟩
    have hlen : i - x.nent.toNat < (x.table.toList.drop x.nent.toNat).length := by
      simp only [List.length_drop, Vector.length_toList, Config.maxEntries]; omega
    have hm := h _ (List.getElem_mem hlen)
    simp only [decide_eq_true_iff, List.getElem_drop, Vector.getElem_toList] at hm
    simpa [Nat.add_sub_cancel' hni] using hm
  · rintro ⟨hn, h⟩
    refine ⟨hn, fun e he => ?_⟩
    obtain ⟨i, hi, rfl⟩ := List.getElem_of_mem he
    have hi' := hi
    simp only [List.length_drop, Vector.length_toList, Config.maxEntries] at hi'
    simp only [decide_eq_true_iff, List.getElem_drop, Vector.getElem_toList]
    exact h _ (by omega) (by omega)

/-- WRTAB keeps the canonical form. -/
theorem Slot.append_tableWf {x : Slot} (e : Entry) (h : x.tableWf = true) (hn : x.nent.toNat ≠ 16) :
    (x.append e).tableWf = true := by
  rw [Slot.tableWf_iff] at h ⊢
  obtain ⟨hle, hz⟩ := h
  have hs : (x.nent + 1#5).toNat = x.nent.toNat + 1 := by
    rw [BitVec.toNat_add]; simp; omega
  simp only [Slot.append, hs]
  refine ⟨by omega, fun i hi hni => ?_⟩
  rw [Vector.getElem_setIfInBounds]
  split
  · omega
  · exact hz i hi (by omega)

/-- WRTAB appends the entry after the valid ones, in table order. -/
theorem Slot.append_entries {x : Slot} (e : Entry) (hn : x.nent.toNat < 16) :
    (x.append e).entries = x.entries ++ [e] := by
  have hs : (x.nent + 1#5).toNat = x.nent.toNat + 1 := by
    rw [BitVec.toNat_add]; simp; omega
  apply List.ext_getElem?
  intro i
  simp only [Slot.entries, Slot.append, hs, Vector.toList_setIfInBounds, List.getElem?_take, List.getElem?_append,
    List.length_take, Vector.length_toList, List.getElem?_set]
  have hm : min x.nent.toNat 16 = x.nent.toNat := by omega
  rw [hm]
  by_cases h1 : i < x.nent.toNat
  · have h2 : ¬ x.nent.toNat = i := by omega
    simp [h1, h2, Nat.lt_succ_of_lt h1]
  · by_cases h2 : x.nent.toNat = i
    · subst i; simp [hn]
    · have h3 : ¬ i < x.nent.toNat + 1 := by omega
      have h4 : ¬ i - x.nent.toNat = 0 := by omega
      simp only [h1, h3, if_false]
      rw [List.getElem?_eq_none]
      simp; omega

/-- Every slot's table memory is canonical. -/
theorem Memory.wf_iff {s : State} : Memory.wf s = true ↔ ∀ k, (s.slot k).tableWf = true := by
  unfold Memory.wf slotIndices
  rw [List.all_eq_true]
  constructor
  · intro h k
    have lt_four : ∀ j : Fin Config.nslot, j = 0 ∨ j = 1 ∨ j = 2 ∨ j = 3 := by decide
    exact h k (by rcases lt_four k with rfl | rfl | rfl | rfl <;> simp)
  · intro h k _; exact h k

/-- Writing a slot whose table is canonical keeps the table memory canonical. -/
theorem Memory.wf_setSlot {s : State} {k : Fin Config.nslot} {x : Slot} (h : Memory.wf s = true)
    (hx : x.tableWf = true) : Memory.wf (s.setSlot k x) = true := by
  rw [Memory.wf_iff] at h ⊢
  intro j
  rw [State.slot_setSlot]
  split
  · exact hx
  · exact h j

theorem Memory.wf_append {s : State} {k : Fin Config.nslot} (e : Entry) (h : Memory.wf s = true)
    (hn : (s.slot k).nent.toNat ≠ 16) : Memory.wf (s.setSlot k ((s.slot k).append e)) = true :=
  Memory.wf_setSlot h (Slot.append_tableWf e (Memory.wf_iff.mp h k) hn)

theorem Memory.wf_clearSlot {s : State} (k : Fin Config.nslot) (h : Memory.wf s = true) :
    Memory.wf (s.clearSlot k) = true :=
  Memory.wf_setSlot h Slot.free_tableWf

theorem Memory.wf_reset : Memory.wf State.reset = true := by decide

theorem State.slot_reset (k : Fin Config.nslot) : State.reset.slot k = Slot.free := by
  simp [State.slot, State.reset, Block.reset, Vector.get_eq_getElem]

/-! ### Inputs -/

theorem State.busy_eq_false {s : State} (h : s.pending = .none) : s.busy = false := by
  simp [State.busy, h]

theorem State.busy_eq_true {s : State} (h : s.pending ≠ .none) : s.busy = true := by
  simp [State.busy, h]

/-- Which accesses the window admits (20_memory.md R64). -/
theorem admitted_iff {off bytes : Nat} : admitted off bytes = true ↔ bytes = 4 ∧ off % 4 = 0 ∧ off < 0x100 := by
  simp [admitted]

/-- CONFIG reports the parameters (10_state.md R33). -/
theorem configValue_eq : Config.configValue = 0x08201004#32 := by decide

theorem State.takeInput_head {s : State} {i : Input} {rest : List Input} (hp : s.pending = .none)
    (h : s.inputs = i :: rest) : s.takeInput = some (i, rest) := by
  simp [State.takeInput, State.busy_eq_false hp, h]

/-- While the host is stalled its accesses are passed over, in order. -/
theorem firstNonHost_append {before rest : List Input} {i : Input} (hb : before.all Input.isHost = true)
    (hi : i.isHost = false) : firstNonHost (before ++ i :: rest) = some (i, before ++ rest) := by
  induction before with
  | nil => simp [firstNonHost, hi]
  | cons b bs ih =>
    simp only [List.all_cons, Bool.and_eq_true] at hb
    simp [firstNonHost, hb.1, ih hb.2]

/-- An input that is no host access is taken past the accesses of a stalled host, which wait in order. -/
theorem State.takeInput_stalled {s : State} {i : Input} {before rest : List Input} (hp : s.pending ≠ .none)
    (h : s.inputs = before ++ i :: rest) (hb : before.all Input.isHost = true) (hi : i.isHost = false) :
    s.takeInput = some (i, before ++ rest) := by
  simp [State.takeInput, State.busy_eq_true hp, h, firstNonHost_append hb hi]

/-- What a stalled machine takes: an input that is no host access, with every host access left in order. -/
theorem firstNonHost_eq_some {is rest : List Input} {i : Input} (h : firstNonHost is = some (i, rest)) :
    i.isHost = false ∧ rest.filter Input.isHost = is.filter Input.isHost := by
  induction is generalizing rest with
  | nil => cases h
  | cons b bs ih =>
    simp only [firstNonHost] at h
    split at h
    · rename_i hb
      split at h
      · cases h
      · rename_i j r hr
        cases h
        obtain ⟨h1, h2⟩ := ih hr
        exact ⟨h1, by simp [hb, h2]⟩
    · rename_i hb
      cases h
      exact ⟨by simpa using hb, by simp [hb]⟩

theorem firstNonHost_eq_none {is : List Input} : firstNonHost is = none ↔ is.all Input.isHost = true := by
  induction is with
  | nil => simp [firstNonHost]
  | cons b bs ih =>
    simp only [firstNonHost, List.all_cons, Bool.and_eq_true]
    split
    · rename_i hb
      split
      · rename_i hn; simp [hb, ih.mp hn]
      · rename_i hn
        simp only [reduceCtorEq, false_iff, not_and]
        intro _ hall
        rw [ih.mpr hall] at hn
        cases hn
    · rename_i hb
      simp [hb]

/-- When no input can be taken: none is left, or a stalled host's accesses are all that is. -/
theorem State.takeInput_eq_none {s : State} :
    s.takeInput = none ↔
      (s.pending = .none ∧ s.inputs = []) ∨ (s.pending ≠ .none ∧ s.inputs.all Input.isHost = true) := by
  by_cases hp : s.pending = .none
  · cases hi : s.inputs <;> simp [State.takeInput, State.busy_eq_false hp, hp, hi]
  · rw [State.takeInput, State.busy_eq_true hp, if_pos rfl, firstNonHost_eq_none]
    simp [hp]

/-- The end of a host program: no delay is pending and no host access is left (00_scope.md R21). -/
theorem State.programEnded_iff {s : State} :
    s.programEnded = true ↔ s.pending = .none ∧ ∀ i ∈ s.inputs, i.isHost = false := by
  simp [State.programEnded, State.busy]

/-- A tick step with no delay pending only increments TICK (44_timebase.md R146). -/
theorem State.tickStep_of_none {s : State} (h : s.pending = .none) : s.tickStep = { s with tick := s.tick + 1#32 } := by
  simp [State.tickStep, State.completePending, h]

/-- Everything a tick step can do: increment TICK, and end a pending delay (44_timebase.md R146, R155, R157). -/
theorem State.tickStep_cases (s : State) :
    s.tickStep = { s with tick := s.tick + 1#32 } ∨
    s.tickStep = { s with tick := s.tick + 1#32, pending := .none, err := .ok } ∨
    s.tickStep = { s with tick := s.tick + 1#32, arg0 := s.tick + 1#32, result := s.tick + 1#32, pending := .none,
                          err := .ok } := by
  unfold State.tickStep State.completePending
  split
  · exact .inl rfl
  · split
    · exact .inr (.inl rfl)
    · exact .inl rfl
  · split
    · exact .inr (.inr rfl)
    · exact .inl rfl

/-- STATUS: BUSY at bit 8 exactly while a delay is pending, ERR's code below it (10_state.md R28). -/
theorem State.status_eq (s : State) :
    s.status = (if s.pending = .none then 0#32 else 0x100#32) + s.err.code.setWidth 32 := by
  unfold State.status State.busy
  by_cases hp : s.pending = .none
  · simp [hp]
  · simp only [hp, ne_eq, not_false_eq_true, decide_true, if_true, if_false]
    cases s.err <;> rfl

/-! ### One step -/

/-- The step that takes an input starts with the engine idle (10_state.md R51). -/
theorem runStep_of_some {s : State} {i : Input} {rest : List Input} (h : s.takeInput = some (i, rest)) :
    runStep s = runInput i { s with engine := Engine.idle, inputs := rest } := by
  simp only [runStep, h]; rfl

/-- The step without an input starts with the engine idle (10_state.md R51). -/
theorem runStep_of_none {s : State} (h : s.takeInput = none) :
    runStep s = idleStep { s with engine := Engine.idle } := by
  simp only [runStep, h]; rfl

/-- All a step can do to the state `u` it starts on, which is `s` with the engine idle and the inputs that are left. -/
theorem runStep_cases {s t : State} (h : runStep s = .next t) :
    ∃ rest : List Input, ∃ u : State, u = { s with engine := Engine.idle, inputs := rest } ∧
      (t = u ∨ t = u.tickStep ∨ (∃ p b, t = u.setPin p b) ∨ t = u.resetBlock ∨
       (∃ off, t = { u with reads := u.reads ++ [u.memRead off] }) ∨
       (∃ b, t = { u with tickEn := b }) ∨ (∃ v, t = { u with arg0 := v }) ∨ (∃ v, t = { u with arg1 := v }) ∨
       t = u.raise .illegal ∨ ∃ c i, decode .cmd32 c = .instr i ∧ exec i u = .next t) := by
  rcases hi : s.takeInput with _ | ⟨i, rest⟩
  · rw [runStep_of_none hi, idleStep] at h
    refine ⟨s.inputs, _, rfl, ?_⟩
    repeat' split at h
    all_goals cases h
    · exact .inr (.inl rfl)
    · exact .inl rfl
  · rw [runStep_of_some hi] at h
    refine ⟨rest, _, rfl, ?_⟩
    generalize ({ s with engine := Engine.idle, inputs := rest } : State) = u at h ⊢
    rcases i with (⟨off, bytes⟩ | ⟨off, bytes, v⟩) | _ | ⟨p, b⟩ | _
    · simp only [runInput, hostAccess] at h
      split at h <;> cases h
      exact .inr (.inr (.inr (.inr (.inl ⟨off, rfl⟩))))
    · simp only [runInput, hostAccess] at h
      split at h
      · unfold State.memWrite issue at h
        repeat' split at h
        all_goals first
          | exact .inr (.inr (.inr (.inr (.inr (.inr (.inr (.inr (.inr ⟨_, _, ‹_›, h⟩))))))))
          | cases h
        all_goals first
          | exact .inl rfl
          | exact .inr (.inr (.inr (.inr (.inr (.inl ⟨_, rfl⟩)))))
          | exact .inr (.inr (.inr (.inr (.inr (.inr (.inl ⟨_, rfl⟩))))))
          | exact .inr (.inr (.inr (.inr (.inr (.inr (.inr (.inl ⟨_, rfl⟩)))))))
          | exact .inr (.inr (.inr (.inr (.inr (.inr (.inr (.inr (.inl rfl))))))))
      · cases h
    · cases h
      unfold State.tickEvent
      split
      · exact .inr (.inl rfl)
      · exact .inl rfl
    · cases h; exact .inr (.inr (.inl ⟨p, b, rfl⟩))
    · cases h; exact .inr (.inr (.inr (.inl rfl)))

end Sys2Proof.Machine
end

