-- ==== Sys2Proof/Laws/Fsm.lean ====
section
/-! SUPPORT. What a guard, an action and a scan can do (41_engine.md R95 to R105). -/

namespace Sys2Proof.Machine

/-! ### Guards -/

@[simp] theorem State.setVerdict_setVerdict (s : State) (b c : Bool) :
    (s.setVerdict b).setVerdict c = s.setVerdict c := rfl

@[simp] theorem State.fired_setVerdict (s : State) (b : Bool) : (s.setVerdict b).fired = s.fired := rfl

/-- A guard changes nothing but the engine's verdict (R105). -/
theorem runGuard_eq (g : Nibble) (s : State) : runGuard g s = s.setVerdict (runGuard g s).engine.verdict := by
  unfold runGuard
  split <;> rfl

/-- A guard's answer does not depend on the verdict of the guard before it. -/
@[simp] theorem runGuard_setVerdict (g : Nibble) (s : State) (b : Bool) :
    runGuard g (s.setVerdict b) = runGuard g s := by
  unfold runGuard
  split <;> rfl

/-! ### Actions -/

/-- An action changes fields of the engine's slot and the GPIO requests, nothing else; it leaves the slot's table, NENT,
SSTAT, KIND, CUR_STATE, PARAM and PIN as they are (R101). -/
theorem runAction_cases (a : Nibble) (s : State) :
    ∃ x out, runAction a s = { s with slots := s.slots.set s.engine.slot x, gpioOut := s.gpioOut ++ out } ∧
      x.sstat = s.fired.sstat ∧ x.kind = s.fired.kind ∧ x.curState = s.fired.curState ∧ x.nent = s.fired.nent ∧
      x.param = s.fired.param ∧ x.pin = s.fired.pin ∧ x.table = s.fired.table := by
  have same : ∃ x out, s = { s with slots := s.slots.set s.engine.slot x, gpioOut := s.gpioOut ++ out } ∧
      x.sstat = s.fired.sstat ∧ x.kind = s.fired.kind ∧ x.curState = s.fired.curState ∧ x.nent = s.fired.nent ∧
      x.param = s.fired.param ∧ x.pin = s.fired.pin ∧ x.table = s.fired.table := by
    refine ⟨s.fired, [], ?_, rfl, rfl, rfl, rfl, rfl, rfl, rfl⟩
    have h := s.setSlot_slot s.engine.slot
    simp only [State.setSlot] at h
    simp only [List.append_nil]
    exact h.symm
  unfold runAction
  split
  · exact same
  · refine ⟨{ s.fired with t0 := s.engine.tick, nextTimeout := s.engine.tick + s.fired.param }, [], ?_,
      rfl, rfl, rfl, rfl, rfl, rfl, rfl⟩
    rw [List.append_nil]; rfl
  · refine ⟨{ s.fired with
        duration := s.engine.tick - s.fired.t0, nextTimeout := s.engine.tick + s.fired.param }, [], ?_,
      rfl, rfl, rfl, rfl, rfl, rfl, rfl⟩
    rw [List.append_nil]; rfl
  · exact ⟨_, [.toggle s.fired.pin], rfl, rfl, rfl, rfl, rfl, rfl, rfl, rfl⟩
  · exact same

/-! ### The scan -/

/-- Entries of other source states, and entries whose guard is false, are passed over (R98, R99). -/
theorem scanTable_skip {cur : Nibble} {before : List Entry} {s : State}
    (h : ∀ e ∈ before, entrySrc e = cur → (runGuard (entryGuard e) s).engine.verdict = false) (rest : List Entry) :
    ∃ b, scanTable cur (before ++ rest) s = scanTable cur rest (s.setVerdict b) := by
  induction before generalizing s with
  | nil => exact ⟨s.engine.verdict, rfl⟩
  | cons e es ih =>
    simp only [List.cons_append, scanTable]
    have hes : ∀ b, ∀ e ∈ es, entrySrc e = cur → (runGuard (entryGuard e) (s.setVerdict b)).engine.verdict = false := by
      intro b f hf hsrc
      rw [runGuard_setVerdict]
      exact h f (List.mem_cons_of_mem _ hf) hsrc
    split
    · rename_i hsrc
      have hv := h e List.mem_cons_self hsrc
      rw [hv, if_neg (by simp), runGuard_eq, hv]
      obtain ⟨b, hb⟩ := ih (hes false)
      exact ⟨b, by rw [hb]; rfl⟩
    · exact ih (fun f hf => h f (List.mem_cons_of_mem _ hf))

/-- The accepted entry's action runs once, and CUR_STATE becomes its target (R101, R102). -/
theorem scanTable_accept {cur : Nibble} {e : Entry} {s : State} (hsrc : entrySrc e = cur)
    (hv : (runGuard (entryGuard e) s).engine.verdict = true) (rest : List Entry) (b : Bool) :
    scanTable cur (e :: rest) (s.setVerdict b) =
      (runAction (entryAction e) (runGuard (entryGuard e) s)).setCurState (entryTgt e) := by
  simp [scanTable, hsrc, hv]

/-- Everything a scan can do: pass every entry over, or accept the first whose guard holds (R99, R100, R103). -/
theorem scanTable_cases (cur : Nibble) (es : List Entry) (s : State) :
    ((∀ e ∈ es, entrySrc e = cur → (runGuard (entryGuard e) s).engine.verdict = false) ∧
      ∃ b, scanTable cur es s = s.setVerdict b) ∨
    (∃ before e after, es = before ++ e :: after ∧
      (∀ f ∈ before, entrySrc f = cur → (runGuard (entryGuard f) s).engine.verdict = false) ∧
      entrySrc e = cur ∧ (runGuard (entryGuard e) s).engine.verdict = true ∧
      scanTable cur es s =
        (runAction (entryAction e) (runGuard (entryGuard e) s)).setCurState (entryTgt e)) := by
  by_cases hall : ∀ e ∈ es, entrySrc e = cur → (runGuard (entryGuard e) s).engine.verdict = false
  · left
    obtain ⟨b, hb⟩ := scanTable_skip hall []
    exact ⟨hall, b, by simpa [scanTable] using hb⟩
  · right
    have hex : ∃ e ∈ es, (decide (entrySrc e = cur) && (runGuard (entryGuard e) s).engine.verdict) = true := by
      simp only [not_forall] at hall
      obtain ⟨e, he, hsrc, hv⟩ := hall
      exact ⟨e, he, by simpa [hsrc] using hv⟩
    obtain ⟨e, he⟩ : ∃ e, es.find? (fun e => decide (entrySrc e = cur) && (runGuard (entryGuard e) s).engine.verdict) =
        some e := Option.isSome_iff_exists.mp (List.find?_isSome.mpr hex)
    obtain ⟨hp, before, after, hes, hbefore⟩ := List.find?_eq_some_iff_append.mp he
    simp only [Bool.and_eq_true, decide_eq_true_iff] at hp
    have hb : ∀ f ∈ before, entrySrc f = cur → (runGuard (entryGuard f) s).engine.verdict = false := by
      intro f hf hsrc
      have := hbefore f hf
      simpa [hsrc] using this
    refine ⟨before, e, after, hes, hb, hp.1, hp.2, ?_⟩
    obtain ⟨b, hskip⟩ := scanTable_skip hb (e :: after)
    rw [hes, hskip]
    exact scanTable_accept hp.1 hp.2 after b

end Sys2Proof.Machine
end

