-- ==== Sys2Proof/Laws/PerInstr.lean ====
section
/-! SUPPORT. A law of every instruction as syntax: its encoding lies in its row of spec/opcode_table.json, that is,
`encode i &&& mask = match`. -/

namespace Sys2Proof.Laws

/-- The mask column of the opcode table. -/
def tableMask : Instr → Word
  | .nop => 0xFFFFFFFF#32
  | .now => 0xFFFFFFFF#32
  | .delay => 0xFFFFFFFF#32
  | .delayUntil => 0xFFFFFFFF#32
  | .tickset => 0xFFFFFFFF#32
  | .tickstep => 0xFFFFFFFF#32
  | .alloc => 0xFFFFFFFF#32
  | .wrtab _ => 0xFF00FFFF#32
  | .wrfld _ _ => 0xFF0000FF#32
  | .commit _ => 0xFF00FFFF#32
  | .newButton => 0xFFFFFFFF#32
  | .newBlink => 0xFFFFFFFF#32
  | .destroy _ => 0xFF00FFFF#32
  | .fire _ => 0xFF00FFFF#32
  | .rdstate _ => 0xFF00FFFF#32
  | .rdfld _ _ => 0xFF0000FF#32
  | .rdtab _ _ => 0xFF0000FF#32
  | .getDuration _ => 0xFF00FFFF#32
  | .resetDuration _ => 0xFF00FFFF#32
  | .checkActivity _ => 0xFF00FFFF#32
  | .gFalse _ _ _ => 0x000000F0#32
  | .gTrue _ _ _ => 0x000000F0#32
  | .gPinPressed _ _ _ => 0x000000F0#32
  | .gPinReleased _ _ _ => 0x000000F0#32
  | .gTimeout _ _ _ => 0x000000F0#32
  | .gHalfPeriod _ _ _ => 0x000000F0#32
  | .aNone _ _ _ => 0x0000000F#32
  | .aPressStart _ _ _ => 0x0000000F#32
  | .aReleaseStart _ _ _ => 0x0000000F#32
  | .aToggle _ _ _ => 0x0000000F#32

/-- The match column of the opcode table. -/
def tableMatch : Instr → Word
  | .nop => 0x00000000#32
  | .now => 0x01000000#32
  | .delay => 0x02000000#32
  | .delayUntil => 0x03000000#32
  | .tickset => 0x04000000#32
  | .tickstep => 0x05000000#32
  | .alloc => 0x10000000#32
  | .wrtab _ => 0x11000000#32
  | .wrfld _ _ => 0x12000000#32
  | .commit _ => 0x13000000#32
  | .newButton => 0x14000000#32
  | .newBlink => 0x15000000#32
  | .destroy _ => 0x16000000#32
  | .fire _ => 0x20000000#32
  | .rdstate _ => 0x21000000#32
  | .rdfld _ _ => 0x22000000#32
  | .rdtab _ _ => 0x23000000#32
  | .getDuration _ => 0x30000000#32
  | .resetDuration _ => 0x31000000#32
  | .checkActivity _ => 0x32000000#32
  | .gFalse _ _ _ => 0x00000000#32
  | .gTrue _ _ _ => 0x00000010#32
  | .gPinPressed _ _ _ => 0x00000020#32
  | .gPinReleased _ _ _ => 0x00000030#32
  | .gTimeout _ _ _ => 0x00000040#32
  | .gHalfPeriod _ _ _ => 0x00000050#32
  | .aNone _ _ _ => 0x00000000#32
  | .aPressStart _ _ _ => 0x00000001#32
  | .aReleaseStart _ _ _ => 0x00000002#32
  | .aToggle _ _ _ => 0x00000003#32

/-- OP and RSV, and FLD where it is not used, of a command word that uses SLOT. -/
theorem commandWord_and_slot (op : Byte) (s : Nat) : commandWord op s 0 &&& 0xFF00FFFF#32 = op ++ 0#24 := by
  apply BitVec.eq_of_getLsbD_eq
  intro i hi
  simp only [commandWord, BitVec.getLsbD_and, BitVec.getLsbD_append]
  interval_cases i <;> simp

/-- OP and RSV of a command word that uses SLOT and FLD. -/
theorem commandWord_and_fld (op : Byte) (s f : Nat) : commandWord op s f &&& 0xFF0000FF#32 = op ++ 0#24 := by
  apply BitVec.eq_of_getLsbD_eq
  intro i hi
  simp only [commandWord, BitVec.getLsbD_and, BitVec.getLsbD_append]
  interval_cases i <;> simp

/-- GUARD of an entry. -/
theorem entryOperand_and_guard (src tgt g a : Nibble) :
    entryOperand src tgt g a &&& 0x000000F0#32 = 0#24 ++ g ++ 0#4 := by
  apply BitVec.eq_of_getLsbD_eq
  intro i hi
  simp only [entryOperand, entryWord, BitVec.getLsbD_and, BitVec.getLsbD_append, BitVec.getLsbD_setWidth]
  interval_cases i <;> simp

/-- ACTION of an entry. -/
theorem entryOperand_and_action (src tgt g a : Nibble) :
    entryOperand src tgt g a &&& 0x0000000F#32 = 0#28 ++ a := by
  apply BitVec.eq_of_getLsbD_eq
  intro i hi
  simp only [entryOperand, entryWord, BitVec.getLsbD_and, BitVec.getLsbD_append, BitVec.getLsbD_setWidth]
  interval_cases i <;> simp

end Sys2Proof.Laws

namespace Sys2Proof.Laws.TableRow

/-- The instruction's encoding lies in its row of the opcode table. -/
def Statement (i : Instr) : Prop := encode i &&& tableMask i = tableMatch i

theorem nop : Statement .nop := by unfold Statement; decide
theorem now : Statement .now := by unfold Statement; decide
theorem delay : Statement .delay := by unfold Statement; decide
theorem delayUntil : Statement .delayUntil := by unfold Statement; decide
theorem tickset : Statement .tickset := by unfold Statement; decide
theorem tickstep : Statement .tickstep := by unfold Statement; decide
theorem alloc : Statement .alloc := by unfold Statement; decide
theorem wrtab (slot : Nat) : Statement (.wrtab slot) :=
  (commandWord_and_slot _ _).trans rfl
theorem wrfld (slot fld : Nat) : Statement (.wrfld slot fld) :=
  (commandWord_and_fld _ _ _).trans rfl
theorem commit (slot : Nat) : Statement (.commit slot) :=
  (commandWord_and_slot _ _).trans rfl
theorem newButton : Statement .newButton := by unfold Statement; decide
theorem newBlink : Statement .newBlink := by unfold Statement; decide
theorem destroy (slot : Nat) : Statement (.destroy slot) :=
  (commandWord_and_slot _ _).trans rfl
theorem fire (slot : Nat) : Statement (.fire slot) :=
  (commandWord_and_slot _ _).trans rfl
theorem rdstate (slot : Nat) : Statement (.rdstate slot) :=
  (commandWord_and_slot _ _).trans rfl
theorem rdfld (slot fld : Nat) : Statement (.rdfld slot fld) :=
  (commandWord_and_fld _ _ _).trans rfl
theorem rdtab (slot idx : Nat) : Statement (.rdtab slot idx) :=
  (commandWord_and_fld _ _ _).trans rfl
theorem getDuration (slot : Nat) : Statement (.getDuration slot) :=
  (commandWord_and_slot _ _).trans rfl
theorem resetDuration (slot : Nat) : Statement (.resetDuration slot) :=
  (commandWord_and_slot _ _).trans rfl
theorem checkActivity (slot : Nat) : Statement (.checkActivity slot) :=
  (commandWord_and_slot _ _).trans rfl
theorem gFalse (src tgt action : Nibble) : Statement (.gFalse src tgt action) :=
  (entryOperand_and_guard _ _ _ _).trans rfl
theorem gTrue (src tgt action : Nibble) : Statement (.gTrue src tgt action) :=
  (entryOperand_and_guard _ _ _ _).trans rfl
theorem gPinPressed (src tgt action : Nibble) : Statement (.gPinPressed src tgt action) :=
  (entryOperand_and_guard _ _ _ _).trans rfl
theorem gPinReleased (src tgt action : Nibble) : Statement (.gPinReleased src tgt action) :=
  (entryOperand_and_guard _ _ _ _).trans rfl
theorem gTimeout (src tgt action : Nibble) : Statement (.gTimeout src tgt action) :=
  (entryOperand_and_guard _ _ _ _).trans rfl
theorem gHalfPeriod (src tgt action : Nibble) : Statement (.gHalfPeriod src tgt action) :=
  (entryOperand_and_guard _ _ _ _).trans rfl
theorem aNone (src tgt guard : Nibble) : Statement (.aNone src tgt guard) :=
  (entryOperand_and_action _ _ _ _).trans rfl
theorem aPressStart (src tgt guard : Nibble) : Statement (.aPressStart src tgt guard) :=
  (entryOperand_and_action _ _ _ _).trans rfl
theorem aReleaseStart (src tgt guard : Nibble) : Statement (.aReleaseStart src tgt guard) :=
  (entryOperand_and_action _ _ _ _).trans rfl
theorem aToggle (src tgt guard : Nibble) : Statement (.aToggle src tgt guard) :=
  (entryOperand_and_action _ _ _ _).trans rfl

end Sys2Proof.Laws.TableRow
end

