-- ==== Sys2Proof/Tests/Slice0.lean ====
section
/-! SUPPORT. Tests. Expected values are those of spec/95_test_vectors.md (its vector ids stand in the comments) or are
written out from the encodings of 30_encoding.md; the last part shows a state for every set of hypotheses. -/

namespace Sys2Proof.Tests
open Sys2Proof.Machine Sys2Proof.Spec

/-! ### Small states -/

/-- Slot 0 is `x`, everything else as at reset. -/
def withSlot (x : Slot) : State := State.reset.setSlot 0 x

/-- A button with PARAM 40 on pin 3. -/
def button (cur : Nibble) (t0 nt dur : Word) : Slot :=
  { buttonSlotOf 40#32 3#8 with curState := cur, t0 := t0, nextTimeout := nt, duration := dur }

/-- A blink slot on pin 5. -/
def blink (cur : Nibble) (period t0 : Word) : Slot := { blinkSlotOf period 5#8 t0 with curState := cur }

/-- A slot under construction. -/
def config (es : List Entry) : Slot := { Slot.free.load es with sstat := .config }

/-- A committed GENERIC slot in state 0. -/
def generic (es : List Entry) : Slot := { Slot.free.load es with sstat := .active }

/-- No slot is FREE. -/
def fullState : State := { State.reset with slots := Vector.replicate 4 (config []) }

/-- The engine samples tick `t` and level `b` for slot 0. -/
def sampled (x : Slot) (t : Word) (b : Bool) : State := { withSlot x with engine := ⟨0, t, b, false⟩ }

/-- What one instruction leaves, seen through `f`. -/
def after {α : Type} (i : Instr) (s : State) (f : State → α) : Option α := (nextOf (exec i s)).map f

/-- What one step leaves, seen through `f`. -/
def afterStep {α : Type} (s : State) (f : State → α) : Option α := (nextOf (step s)).map f

/-- The fault a step stops with. -/
def faultOf (s : State) : Option Fault :=
  match step s with
  | .fault f => some f
  | .next _ => none
  | .refused _ => none

/-- `s` with these inputs. -/
def given (is : List Input) (s : State) : State := { s with inputs := is }

/-! ### Well-formedness -/

theorem test_wf_slot_256 : (Instr.fire 256).wellFormed = false := by decide
theorem test_wf_slot_256_fld : (Instr.rdfld 256 0).wellFormed = false := by decide
theorem test_wf_fld_256 : (Instr.wrfld 0 256).wellFormed = false := by decide
theorem test_wf_index_256 : (Instr.rdtab 0 256).wellFormed = false := by decide
theorem test_wf_largest : (Instr.wrfld 255 255).wellFormed = true := by decide

/-! ### Decoding: one word for every constructor -/

/-- R79, R81: OP in bits 31:24, SLOT in 23:16, FLD in 15:8, 0 in 7:0. -/
theorem test_decode_words_without_operands :
    decode .cmd32 0x00000000#32 = .instr .nop ∧
    decode .cmd32 0x01000000#32 = .instr .now ∧
    decode .cmd32 0x02000000#32 = .instr .delay ∧
    decode .cmd32 0x03000000#32 = .instr .delayUntil ∧
    decode .cmd32 0x04000000#32 = .instr .tickset ∧
    decode .cmd32 0x05000000#32 = .instr .tickstep ∧
    decode .cmd32 0x10000000#32 = .instr .alloc ∧
    decode .cmd32 0x14000000#32 = .instr .newButton ∧
    decode .cmd32 0x15000000#32 = .instr .newBlink := by decide

theorem test_decode_words_with_operands :
    decode .cmd32 0x11020000#32 = .instr (.wrtab 2) ∧
    decode .cmd32 0x12030400#32 = .instr (.wrfld 3 4) ∧
    decode .cmd32 0x13010000#32 = .instr (.commit 1) ∧
    decode .cmd32 0x16020000#32 = .instr (.destroy 2) ∧
    decode .cmd32 0x20FF0000#32 = .instr (.fire 255) ∧
    decode .cmd32 0x21010000#32 = .instr (.rdstate 1) ∧
    decode .cmd32 0x22030800#32 = .instr (.rdfld 3 8) ∧
    decode .cmd32 0x23010F00#32 = .instr (.rdtab 1 15) ∧
    decode .cmd32 0x30020000#32 = .instr (.getDuration 2) ∧
    decode .cmd32 0x31010000#32 = .instr (.resetDuration 1) ∧
    decode .cmd32 0x32030000#32 = .instr (.checkActivity 3) := by decide

/-- R86, R87: SRC in bits 15:12, TGT in 11:8, GUARD in 7:4, ACTION in 3:0. -/
theorem test_decode_guards :
    decode .te16Guard 0x1203#32 = .instr (.gFalse 1#4 2#4 3#4) ∧
    decode .te16Guard 0x0110#32 = .instr (.gTrue 0#4 1#4 0#4) ∧
    decode .te16Guard 0x0121#32 = .instr (.gPinPressed 0#4 1#4 1#4) ∧
    decode .te16Guard 0x2332#32 = .instr (.gPinReleased 2#4 3#4 2#4) ∧
    decode .te16Guard 0x1240#32 = .instr (.gTimeout 1#4 2#4 0#4) ∧
    decode .te16Guard 0x1053#32 = .instr (.gHalfPeriod 1#4 0#4 3#4) ∧
    decode .te16Guard 0x0160#32 = .illegal .reservedGuard ∧
    decode .te16Guard 0x10000#32 = .illegal .entryTooWide := by decide

/-- R86, R88. -/
theorem test_decode_actions :
    decode .te16Action 0x1240#32 = .instr (.aNone 1#4 2#4 4#4) ∧
    decode .te16Action 0x0121#32 = .instr (.aPressStart 0#4 1#4 2#4) ∧
    decode .te16Action 0x2332#32 = .instr (.aReleaseStart 2#4 3#4 3#4) ∧
    decode .te16Action 0x0153#32 = .instr (.aToggle 0#4 1#4 5#4) ∧
    decode .te16Action 0x0014#32 = .illegal .reservedAction ∧
    decode .te16Action 0x10000#32 = .illegal .entryTooWide := by decide

/-- DC2, DC3, DC5, DC9, DC14, DC15, DC16. -/
theorem test_decode_illegal_operands :
    decode .cmd32 0x00000001#32 = .illegal .rsvNotZero ∧
    decode .cmd32 0x00010000#32 = .illegal .slotNotZero ∧
    decode .cmd32 0x01050000#32 = .illegal .slotNotZero ∧
    decode .cmd32 0x20000100#32 = .illegal .fldNotZero ∧
    decode .cmd32 0x10000001#32 = .illegal .rsvNotZero ∧
    decode .cmd32 0x14030000#32 = .illegal .slotNotZero ∧
    decode .cmd32 0x30000100#32 = .illegal .fldNotZero := by decide

/-- DC6: the first and last opcode of each reserved range. -/
theorem test_decode_reserved_opcodes :
    ∀ op ∈ [0x06#8, 0x0F#8, 0x17#8, 0x1F#8, 0x24#8, 0x2F#8, 0x33#8, 0xFF#8],
      decode .cmd32 (op ++ 0#24) = .illegal .reservedOpcode := by decide

/-- R92's `entry 0, 1, G_TRUE, 1, A_TOGGLE` is 0x1113, and 42_button.md R123's fourth entry is 0x2332. -/
theorem test_encode_entry :
    encode (.gTrue 1#4 1#4 3#4) = 0x1113#32 ∧ encode (.aReleaseStart 2#4 3#4 3#4) = 0x2332#32 := by decide

theorem test_table_word :
    decodeTableWord 32 0x12030400 = some (.wrfld 3 4) ∧ decodeTableWord 16 0x0110 = some (.gTrue 0#4 1#4 0#4) ∧
    decodeTableWord 16 0x0003 = some (.aToggle 0#4 0#4 0#4) ∧ decodeTableWord 32 0xFF000000 = none := by decide

/-! ### The window -/

/-- MW14: the byte lanes of ID, lowest first. -/
theorem test_id_lanes :
    byteLane Config.idValue 0 = 0x01#8 ∧ byteLane Config.idValue 1 = 0x47#8 ∧ byteLane Config.idValue 2 = 0x44#8 ∧
    byteLane Config.idValue 3 = 0x53#8 := by decide

/-- MW6, MW8, MW10: TICK is read-only, CTRL keeps bit 0, ARG0 keeps everything. -/
theorem test_window_writes :
    afterStep (given [.host (.write 0x0C 4 5#32)] { State.reset with tick := 100#32 }) (·.tick) = some 100#32 ∧
    afterStep (given [.host (.write 0x04 4 0xFFFFFFFF#32)] State.reset) State.ctrl = some 1#32 ∧
    afterStep (given [.host (.write 0x10 4 0xDEADBEEF#32)] State.reset) (·.arg0) = some 0xDEADBEEF#32 := by decide

/-- MW1, MW2, MW4. -/
theorem test_window_reads :
    afterStep (given [.host (.read 0x00 4)] State.reset) (·.reads) = some [0x53444701#32] ∧
    afterStep (given [.host (.read 0x20 4)] State.reset) (·.reads) = some [0x08201004#32] ∧
    afterStep (given [.host (.read 0xFC 4)] State.reset) (·.reads) = some [0#32] := by decide

/-- MW7 and P3, line 19: STATUS reads the number of ERR. MW15: BUSY shows in the state while a delay is pending. -/
theorem test_status_reads :
    afterStep (given [.host (.read 0x08 4)] { State.reset with err := .badSlot }) (·.reads) = some [0x00000004#32] ∧
    afterStep (given [.host (.read 0x08 4)] { State.reset with err := .state }) (·.reads) = some [0x00000005#32] ∧
    ({ State.reset with pending := .delay 0#32 1#32, err := .badArg } : State).status = 0x0000010A#32 := by decide

/-- 60_exceptions.md R164: the eleven codes, in the table's order. -/
theorem test_error_codes :
    [Err.ok, .noSlot, .badTable, .illegal, .badSlot, .state, .kind, .tabFull, .tickRun, .badField, .badArg].map Err.code =
      [0x00#8, 0x01#8, 0x02#8, 0x03#8, 0x04#8, 0x05#8, 0x06#8, 0x07#8, 0x08#8, 0x09#8, 0x0A#8] := by decide

/-- 00_scope.md R21: a program whose last access is made has ended; one with an access left, or a delay pending, has not. -/
theorem test_program_end :
    (given [.tick, .pin 0#8 true] State.reset).programEnded = true ∧
    (given [.tick, .host (.read 0 4)] State.reset).programEnded = false ∧
    ({ State.reset with pending := .delay 0#32 1#32 } : State).programEnded = false ∧
    afterStep { State.reset with tickEn := true } (fun s => (s.tick, s.programEnded)) = some (1#32, true) := by decide

/-- MW11, MW12, MW13. -/
theorem test_window_faults :
    faultOf (given [.host (.read 0x02 4)] State.reset) = some (.busError 0x02 4) ∧
    faultOf (given [.host (.write 0x10 1 0#32)] State.reset) = some (.busError 0x10 1) ∧
    faultOf (given [.host (.read 0x100 4)] State.reset) = some (.busError 0x100 4) := by decide

/-- RS3: reset is the way out of a delay that nobody can complete. -/
theorem test_reset_ends_a_delay :
    faultOf { State.reset with pending := .delay 0#32 5#32 } = some .stuck ∧
    afterStep (given [.reset] { State.reset with pending := .delay 0#32 5#32 }) (·.pending) = some .none := by decide

/-- 20_memory.md R71: a stalled host's access waits, a tick event does not. -/
theorem test_stalled_access_waits :
    afterStep (given [.host (.read 0 4), .tick] { State.reset with tickEn := true, pending := .delay 0#32 5#32 })
      (fun s => (s.tick, s.inputs, s.reads)) = some (1#32, [.host (.read 0 4)], []) := by decide

/-! ### Comparisons -/

/-- CP2, CP4, CP5, CP6, CP7. -/
theorem test_deadline :
    deadlineReached 139#32 140#32 = false ∧ deadlineReached 0x10#32 0xFFFFFFF0#32 = true ∧
    deadlineReached 0xFFFFFFF0#32 0x10#32 = false ∧ deadlineReached 0x7FFFFFFF#32 0#32 = true ∧
    deadlineReached 0x80000000#32 0#32 = false := by decide

/-- CP11, CP12, CP13, CP14, CP18. -/
theorem test_elapsed :
    elapsedAtLeast 1249#32 1000#32 250#32 = false ∧ elapsedAtLeast 1250#32 1000#32 250#32 = true ∧
    elapsedAtLeast 1#32 0xFFFFFFFC#32 5#32 = true ∧ elapsedAtLeast 1#32 0xFFFFFFFC#32 6#32 = false ∧
    elapsedAtLeast 0xF0000000#32 0#32 0x10#32 = true := by decide

/-! ### Timebase -/

/-- TK1, TK2. -/
theorem test_tick_event :
    afterStep (given [.tick] { State.reset with tick := 0xFFFFFFFF#32, tickEn := true }) (·.tick) = some 0#32 ∧
    afterStep (given [.tick] { State.reset with tick := 7#32 }) (·.tick) = some 7#32 := by decide

/-- PR8. -/
theorem test_nop : after .nop { State.reset with err := .badSlot } (·.err) = some .ok := by decide

/-- TK3. -/
theorem test_now : after .now { State.reset with tick := 0xFFFFFFFF#32 } (·.result) = some 0xFFFFFFFF#32 := by decide

/-- P2, line 10. -/
theorem test_delay :
    after .delay { State.reset with tick := 1#32, arg0 := 5#32, tickEn := true } (·.pending) =
      some (.delay 1#32 5#32) := by decide

/-- P4, lines 4 and 18. -/
theorem test_delay_until :
    after .delayUntil { State.reset with arg1 := 4#32 } (·.pending) = some (.delayUntil 4#32) ∧
    after .delayUntil { State.reset with arg0 := 24#32, arg1 := 4#32, tick := 30#32 }
      (fun s => (s.arg0, s.result, s.pending)) = some (30#32, 30#32, .none) := by decide

/-- P4, line 5: the step to the target completes. -/
theorem test_delay_until_completes :
    afterStep (given [.tick] { State.reset with tick := 3#32, tickEn := true, pending := .delayUntil 4#32 })
      (fun s => (s.arg0, s.result, s.pending)) = some (4#32, 4#32, .none) := by decide

/-- TK5. -/
theorem test_tickset : after .tickset { State.reset with arg0 := 0xFFFFFFF0#32 } (·.tick) = some 0xFFFFFFF0#32 := by
  decide
/-- TK6. -/
theorem test_tickset_running :
    after .tickset { State.reset with arg0 := 9#32, tick := 50#32, tickEn := true } (fun s => (s.tick, s.err)) =
      some (50#32, .tickRun) := by decide
/-- TK7. -/
theorem test_tickstep_wraps :
    after .tickstep { State.reset with tick := 0xFFFFFFF0#32, arg0 := 0x20#32 } (·.tick) = some 0x10#32 := by decide
/-- TK10. -/
theorem test_tickstep_running :
    after .tickstep { State.reset with tickEn := true, arg0 := 1#32 } (fun s => (s.tick, s.err)) =
      some (0#32, .tickRun) := by decide

/-! ### Registering a table -/

/-- CN2. -/
theorem test_alloc :
    after .alloc (fullState.clearSlot 1) (fun s => (s.result, (s.slot 1).sstat, s.err)) =
      some (1#32, .config, .ok) := by decide
/-- CN3. -/
theorem test_alloc_full :
    after .alloc { fullState with result := 3#32 } (fun s => (s.result, s.err)) = some (3#32, .noSlot) := by decide
/-- CN5. -/
theorem test_wrtab :
    after (.wrtab 0) { withSlot (config (List.replicate 15 0x0010#16)) with arg0 := 0x0011#32 }
      (fun s => (s.result, (s.slot 0).nent, (s.slot 0).table[15])) = some (15#32, 16#5, 0x0011#16) := by decide
/-- PR4, CN6. -/
theorem test_wrtab_order :
    after (.wrtab 0) { withSlot (config (List.replicate 16 0x0010#16)) with arg0 := 0x10000#32 } (·.err) =
      some .badArg ∧
    after (.wrtab 0) { withSlot (config (List.replicate 16 0x0010#16)) with arg0 := 0x0010#32 } (·.err) =
      some .tabFull := by decide
/-- CN11, CN12. -/
theorem test_wrfld_pin :
    after (.wrfld 0 4) { withSlot (config []) with arg0 := 0xFF#32 } (fun s => (s.slot 0).pin) = some 0xFF#8 ∧
    after (.wrfld 0 4) { withSlot (config []) with arg0 := 0x100#32 } (·.err) = some .badArg := by decide
/-- PR3, CN14. -/
theorem test_wrfld_order :
    after (.wrfld 0 5) { withSlot (config []) with arg0 := 0x100#32 } (·.err) = some .badField ∧
    after (.wrfld 0 9) (withSlot (button 0#4 0#32 0#32 0#32)) (·.err) = some .state := by decide
/-- VA5, VA7, VA8, VA6. -/
theorem test_commit_failures :
    after (.commit 0) (withSlot (config [0x0010#16, 0x0110#16])) (·.result) = some 0x00000104#32 ∧
    after (.commit 0) (withSlot (config [0x0176#16])) (·.result) = some 0x00000002#32 ∧
    after (.commit 0) (withSlot (config [0x0114#16])) (·.result) = some 0x00000003#32 ∧
    after (.commit 0) { withSlot (config [0x0010#16]) with arg0 := 2#32 } (·.result) = some 0x00000005#32 := by decide
/-- VA12. -/
theorem test_commit :
    after (.commit 0) { withSlot (config [0x0110#16, 0x1113#16]) with arg0 := 1#32 }
      (fun s => ((s.slot 0).curState, (s.slot 0).sstat, s.err)) = some (1#4, .active, .ok) := by decide
/-- CN16. -/
theorem test_destroy :
    after (.destroy 0) (withSlot (blink 1#4 500#32 0#32)) (fun s => (s.slot 0, s.gpioOut)) = some (Slot.free, []) := by
  decide

/-! ### Firing -/

/-- EN3: one entry is accepted, once. -/
theorem test_fire_once :
    after (.fire 0) (withSlot (generic [0x0110#16, 0x0210#16, 0x1010#16, 0x2010#16])) (fun s => (s.slot 0).curState) =
      some 1#4 := by decide
/-- EN8, EN9, EN10. -/
theorem test_fire_refused :
    after (.fire 0) State.reset (·.err) = some .badSlot ∧
    after (.fire 0) (withSlot (config [])) (·.err) = some .state ∧
    after (.fire 4) State.reset (·.err) = some .badSlot := by decide

theorem test_guard_false : after (.gFalse 0#4 0#4 0#4) (sampled (generic []) 0#32 true) (·.engine.verdict) =
    some false := by decide
theorem test_guard_true : after (.gTrue 0#4 0#4 0#4) (sampled (generic []) 0#32 false) (·.engine.verdict) =
    some true := by decide
/-- EN5. -/
theorem test_guard_pressed :
    after (.gPinPressed 0#4 1#4 0#4) (sampled (generic []) 0#32 true) (·.engine.verdict) = some true := by decide
theorem test_guard_released :
    after (.gPinReleased 1#4 0#4 0#4) (sampled (generic []) 0#32 true) (·.engine.verdict) = some false := by decide
/-- BT13, BT12. -/
theorem test_guard_timeout :
    after (.gTimeout 1#4 2#4 0#4) (sampled (button 1#4 100#32 140#32 0#32) 0x8000008B#32 true) (·.engine.verdict) =
      some true ∧
    after (.gTimeout 1#4 2#4 0#4) (sampled (button 1#4 100#32 140#32 0#32) 0x8000008C#32 true) (·.engine.verdict) =
      some false := by decide
/-- BK6, BK11. -/
theorem test_guard_half_period :
    after (.gHalfPeriod 0#4 1#4 3#4) (sampled (blink 0#4 5#32 0#32) 1#32 false) (·.engine.verdict) = some false ∧
    after (.gHalfPeriod 0#4 1#4 3#4) (sampled (blink 0#4 5#32 0#32) 2#32 false) (·.engine.verdict) = some true ∧
    after (.gHalfPeriod 0#4 1#4 3#4) (sampled (blink 0#4 0xFFFFFFFF#32 0#32) 0x7FFFFFFE#32 false) (·.engine.verdict) =
      some false := by decide
theorem test_action_none :
    nextOf (exec (.aNone 0#4 0#4 1#4) (sampled (generic []) 9#32 true)) = some (sampled (generic []) 9#32 true) := by
  decide
/-- L1-5, first row. -/
theorem test_action_press_start :
    after (.aPressStart 0#4 1#4 2#4) (sampled (button 0#4 0#32 0#32 0#32) 0xFFFFFFF0#32 true)
      (fun s => ((s.slot 0).t0, (s.slot 0).nextTimeout)) = some (0xFFFFFFF0#32, 0x18#32) := by decide
/-- EN6: T0 is read as it was before the action. -/
theorem test_action_release_start :
    after (.aReleaseStart 0#4 0#4 1#4) (sampled { generic [] with param := 5#32, t0 := 100#32 } 130#32 false)
      (fun s => ((s.slot 0).duration, (s.slot 0).nextTimeout, (s.slot 0).t0)) = some (30#32, 135#32, 100#32) := by decide
/-- EN2. -/
theorem test_action_toggle :
    after (.aToggle 0#4 0#4 1#4) (sampled { generic [] with pin := 7#8 } 4#32 false)
      (fun s => ((s.slot 0).t0, s.gpioOut)) = some (4#32, [.toggle 7#8]) := by decide

/-! ### Debug reads -/

/-- RD1, RD3. -/
theorem test_rdstate :
    after (.rdstate 0) (withSlot (button 2#4 0#32 0#32 0#32)) (·.result) = some 2#32 ∧
    after (.rdstate 4) State.reset (·.err) = some .badSlot := by decide
/-- RD4: every field of a fresh button. -/
theorem test_rdfld :
    [0, 1, 2, 3, 4, 5, 6, 7, 8].map (fun f => after (.rdfld 0 f) (withSlot (button 0#4 0#32 0#32 0#32)) (·.result)) =
      [40#32, 0#32, 0#32, 0#32, 3#32, 1#32, 0#32, 6#32, 2#32].map some := by decide
/-- RD5, RD6. -/
theorem test_rdfld_order :
    after (.rdfld 0 9) State.reset (·.err) = some .badField ∧
    after (.rdfld 4 9) State.reset (·.err) = some .badSlot := by decide
/-- RD7, RD8. -/
theorem test_rdtab :
    [0, 1, 2, 3, 4, 5].map (fun i => after (.rdtab 0 i) (withSlot (button 0#4 0#32 0#32 0#32)) (·.result)) =
      [0x0121#32, 0x1030#32, 0x1240#32, 0x2332#32, 0x3220#32, 0x3040#32].map some ∧
    after (.rdtab 0 6) (withSlot (button 0#4 0#32 0#32 0#32)) (·.err) = some .badField := by decide

/-! ### Button and blink -/

/-- BT1. -/
theorem test_new_button :
    after .newButton { State.reset with arg0 := 40#32, arg1 := 3#32 } (fun s => (s.slot 0, s.result, s.gpioOut)) =
      some (button 0#4 0#32 0#32 0#32, 0#32, []) := by decide
/-- PR1, BT3. -/
theorem test_new_button_refused :
    after .newButton { fullState with arg1 := 0x100#32 } (·.err) = some .badArg ∧
    after .newButton { fullState with arg1 := 3#32 } (·.err) = some .noSlot := by decide
/-- BK1. -/
theorem test_new_blink :
    after .newBlink { State.reset with tick := 1000#32, arg0 := 500#32, arg1 := 5#32 }
      (fun s => (s.gpioOut, (s.slot 0).t0, (s.slot 0).nent, (s.slot 0).kind)) =
      some ([.write 5#8 false], 1000#32, 2#5, .blink) := by decide
/-- BK13, BK12. -/
theorem test_new_blink_refused :
    after .newBlink { State.reset with arg1 := 0x00010005#32 } (·.err) = some .badArg ∧
    after .newBlink fullState (fun s => (s.err, s.gpioOut)) = some (.noSlot, []) := by decide
/-- BT5: revert wins over timeout. -/
theorem test_button_reverts :
    after (.fire 0) { withSlot (button 1#4 100#32 140#32 0#32) with tick := 150#32 } (fun s => s.slot 0) =
      some (button 0#4 100#32 140#32 0#32) := by decide
/-- L1-1, the FIRE at 260. -/
theorem test_button_release :
    after (.fire 0) { withSlot (button 2#4 100#32 140#32 0#32) with tick := 260#32 } (fun s => s.slot 0) =
      some (button 3#4 100#32 300#32 160#32) := by decide
/-- BK9, its second FIRE. -/
theorem test_blink_toggles :
    after (.fire 0) { withSlot (blink 0#4 10#32 0xFFFFFFFC#32) with tick := 1#32 }
      (fun s => (s.slot 0, s.gpioOut)) = some (blink 1#4 10#32 1#32, [.toggle 5#8]) := by decide
/-- L1-1's read after the FIRE at 260, BT17. -/
theorem test_get_duration :
    after (.getDuration 0) (withSlot (button 3#4 100#32 300#32 160#32)) (·.result) = some 160#32 ∧
    after (.getDuration 0) (withSlot (blink 0#4 10#32 0#32)) (·.err) = some .kind := by decide
/-- BT16. -/
theorem test_reset_duration :
    after (.resetDuration 0) { withSlot (button 3#4 100#32 300#32 160#32) with result := 9#32 }
      (fun s => (s.slot 0, s.result)) = some (button 3#4 100#32 300#32 0#32, 9#32) := by decide
/-- BT14. -/
theorem test_check_activity :
    [0#4, 1#4, 2#4, 3#4].map (fun c => after (.checkActivity 0) (withSlot (button c 0#32 0#32 0#32)) (·.result)) =
      [0#32, 0#32, 1#32, 1#32].map some := by decide
/-- PR7. -/
theorem test_check_activity_kind : after (.checkActivity 0) (withSlot (config [])) (·.err) = some .kind := by decide

/-! ### A step runs what is placed (log entry 6) -/

theorem test_placed_command :
    afterStep (State.reset.withFetchWord 32 0x10000000) (fun s => (s.slot 0).sstat) = some .config := by decide

theorem test_placed_entry :
    afterStep (State.reset.withFetchWord 16 0x0013) (·.gpioOut) = some [.toggle 0#8] := by decide

/-! ### No empty hypotheses: a state for every set of them -/

theorem test_hyp_EncodeThenDecode :
    (Instr.wrfld 255 255).wellFormed = true ∧ (Instr.fire 0).wellFormed = true ∧
    (Instr.gHalfPeriod 15#4 15#4 15#4).wellFormed = true := by decide

theorem test_hyp_DecodeThenEncode :
    decode .cmd32 0x22FFFF00#32 = .instr (.rdfld 255 255) ∧ decode .te16Guard 0xFF5F#32 = .instr (.gHalfPeriod 15#4 15#4 15#4) ∧
    decode .te16Action 0xFFF3#32 = .instr (.aToggle 15#4 15#4 15#4) := by decide

theorem test_hyp_IllegalCommandWords :
    (∀ op ∈ [0x06#8, 0x0F#8, 0x17#8, 0x1F#8, 0x24#8, 0x2F#8, 0x33#8, 0xFF#8],
      (decode .cmd32 (op ++ 0#24)).toOption = none) ∧
    (decode .cmd32 0x000000FF#32).toOption = none ∧ (decode .cmd32 0x00010000#32).toOption = none ∧
    (decode .cmd32 0x20000100#32).toOption = none := by decide

theorem test_hyp_IllegalCommandWords_not :
    ∀ op ∈ [0x05#8, 0x10#8, 0x16#8, 0x20#8, 0x23#8, 0x30#8, 0x32#8],
      (decode .cmd32 (op ++ 0#24)).toOption ≠ none := by decide

theorem test_hyp_StepRunsIssuedCommand :
    State.reset.pending = .none ∧
    (given [.host (.write 0x1C 4 0x20000000#32)] State.reset).inputs = .host (.write 0x1C 4 0x20000000#32) :: [] ∧
    decode .cmd32 0x20000000#32 = .instr (.fire 0) := by decide

theorem test_hyp_IllegalWordRefused :
    (given [.host (.write 0x1C 4 0x00000001#32)] State.reset).pending = .none ∧
    (given [.host (.write 0x1C 4 0x00000001#32)] State.reset).inputs = .host (.write 0x1C 4 0x00000001#32) :: [] ∧
    decode .cmd32 0x00000001#32 = .illegal .rsvNotZero := by decide

theorem test_hyp_WindowReads :
    ∀ off ∈ [0x00, 0x04, 0x08, 0x0C, 0x10, 0x14, 0x18, 0x1C, 0x20, 0x24, 0xFC],
      (given [.host (.read off 4)] State.reset).pending = .none ∧ off % 4 = 0 ∧ off < 0x100 ∧
      (given [.host (.read off 4)] State.reset).inputs = .host (.read off 4) :: [] := by decide

theorem test_hyp_WindowWrites :
    ∀ off ∈ [0x00, 0x04, 0x08, 0x0C, 0x10, 0x14, 0x18, 0x20, 0x24, 0xFC],
      (given [.host (.write off 4 1#32)] State.reset).pending = .none ∧ off % 4 = 0 ∧ off < 0x100 ∧ off ≠ 0x1C ∧
      (given [.host (.write off 4 1#32)] State.reset).inputs = .host (.write off 4 1#32) :: [] := by decide

theorem test_hyp_UnadmittedAccessFaults :
    ∀ p ∈ [((0 : Nat), (2 : Nat)), (2, 4), (0x100, 4), (0xFF, 1)],
      (given [.host (.read p.1 p.2)] State.reset).pending = .none ∧ (p.2 ≠ 4 ∨ p.1 % 4 ≠ 0 ∨ 0x100 ≤ p.1) ∧
      ((given [.host (.read p.1 p.2)] State.reset).inputs = .host (.read p.1 p.2) :: [] ∨
        (given [.host (.read p.1 p.2)] State.reset).inputs = .host (.write p.1 p.2 0#32) :: []) := by decide

/-- Both ways an input comes next: first, or behind an access of a stalled host. -/
theorem test_hyp_ResetAtAnyTime :
    comesNext (given [.reset] State.reset) .reset [] [] ∧
    comesNext (given [.host (.read 0 4), .reset] { State.reset with pending := .delay 0#32 1#32 }) .reset
      [.host (.read 0 4)] [] := by
  unfold comesNext; decide

theorem test_hyp_LevelChanges :
    comesNext (given [.pin 255#8 true] State.reset) (.pin 255#8 true) [] [] ∧
    comesNext (given [.host (.read 0 4), .pin 0#8 false] { State.reset with pending := .delay 0#32 1#32 }) (.pin 0#8 false)
      [.host (.read 0 4)] [] := by
  unfold comesNext; decide

theorem test_level_changes :
    afterStep (given [.pin 255#8 true] State.reset) (fun s => (s.gpioRead 255#8, s.gpioRead 254#8)) = some (true, false) ∧
    afterStep (given [.host (.read 0 4), .pin 0#8 false] { State.reset with pins := 3#256, pending := .delay 0#32 1#32 })
      (fun s => (s.gpioRead 0#8, s.gpioRead 1#8, s.inputs)) = some (false, true, [.host (.read 0 4)]) := by decide

theorem test_hyp_DeadlineCountdown :
    (1 ≤ 2 ^ 31 ∧ 2 ^ 31 ≤ 2 ^ 31 ∧ 0 < 2 ^ 31 ∧
      deadlineReached (0#32 - BitVec.ofNat 32 (2 ^ 31) + BitVec.ofNat 32 0) 0#32 = false) ∧
    deadlineReached (0#32 - 1#32 + BitVec.ofNat 32 (1 + (2 ^ 31 - 1))) 0#32 = true ∧
    ((0x7FFFFFFF#32).toNat < (0#32).toNat + 2 ^ 31 ∧ (0#32).toNat < (0x7FFFFFFF#32).toNat + 2 ^ 31) := by decide

theorem test_hyp_ElapsedCountdown :
    (2 ^ 32 - 1 < 2 ^ 32 ∧ elapsedAtLeast (7#32 + BitVec.ofNat 32 (2 ^ 32 - 1)) 7#32 0xFFFFFFFF#32 = true) ∧
    1 ≤ (1#32).toNat := by decide

theorem test_hyp_TickStep :
    (given [.tick] { State.reset with tickEn := true }).tickEn = true ∧
    comesNext (given [.tick] { State.reset with tickEn := true }) .tick [] [] ∧
    comesNext (given [.host (.read 0 4), .tick] { State.reset with tickEn := true, pending := .delay 0#32 1#32 }) .tick
      [.host (.read 0 4)] [] ∧
    comesNext (given [.tick] { State.reset with tickEn := true, pending := .delayUntil 1#32 }) .tick [] [] := by
  unfold comesNext; decide

theorem test_hyp_TickEventLost :
    (given [.tick] State.reset).tickEn = false ∧ comesNext (given [.tick] State.reset) .tick [] [] ∧
    comesNext (given [.host (.read 0 4), .tick] { State.reset with pending := .delay 0#32 1#32 }) .tick
      [.host (.read 0 4)] [] := by
  unfold comesNext; decide

theorem test_hyp_DelayIssue : State.reset.arg0 = 0#32 ∧ ({ State.reset with arg0 := 1#32 } : State).arg0 ≠ 0#32 := by
  decide

/-- The boundary: one tick short of half a circle past the target, and half a circle. -/
theorem test_hyp_DelayUntilIssue :
    ((0x7FFFFFFF#32) - (0#32 + 0#32)).toNat < 2 ^ 31 ∧ 2 ^ 31 ≤ ((0x80000000#32) - (0#32 + 0#32)).toNat := by decide

theorem test_hyp_DelayTakesExactlyNTicks :
    ({ State.reset with arg0 := 2#32 } : State).arg0 ≠ 0#32 ∧ 1 < ({ State.reset with arg0 := 2#32 } : State).arg0.toNat := by
  decide

theorem test_hyp_DelayUntilReturnsAtTarget :
    2 ^ 31 ≤ ((5#32) - (3#32 + 4#32)).toNat ∧ 1 < ((3#32) + 4#32 - 5#32).toNat := by decide

theorem test_hyp_StepsWithoutInput :
    (noneComes { State.reset with tickEn := true } ∧ noneComes State.reset) ∧
    noneComes (given [.host (.read 0 4)] { State.reset with tickEn := true, pending := .delay 0#32 1#32 }) ∧
    noneComes { State.reset with tickEn := true, pending := .delayUntil 1#32 } ∧
    noneComes (given [.host (.read 0 4)] { State.reset with pending := .delay 0#32 1#32 }) := by
  unfold noneComes; decide

theorem test_hyp_StepsWithoutInput_ended : (given [.tick] State.reset).programEnded = true := by decide

theorem test_hyp_StalledHostHasNoStep :
    (given [.host (.read 0 4), .tick] { State.reset with pending := .delay 0#32 1#32 }).pending ≠ .none ∧
    (nextOf (step (given [.host (.read 0 4), .tick] { State.reset with pending := .delay 0#32 1#32 }))).isSome = true := by
  decide

theorem test_hyp_TickHooks :
    State.reset.tickEn = false ∧ ({ State.reset with tickEn := true } : State).tickEn = true := by decide

theorem test_hyp_TickstepIsTickSteps : State.reset.tickEn = false ∧ State.reset.pending = .none := by decide

theorem test_hyp_TickHasSingleWriter :
    after .tickset { State.reset with arg0 := 1#32 } (fun s => decide (s.tick ≠ State.reset.tick)) = some true := by decide

theorem test_hyp_FireRefused :
    noLiveSlot State.reset 3 ∧ noLiveSlot State.reset 4 ∧ named (withSlot (config [])) 0 0 ∧
    ((withSlot (config [])).slot 0).sstat = .config := by
  unfold noLiveSlot named; decide

theorem test_hyp_FireIsTransition : ((withSlot (button 0#4 0#32 0#32 0#32)).slot 0).sstat = .active := by decide

theorem test_hyp_FireIdleIsNoOp :
    ((withSlot (generic [0x0000#16])).slot 0).sstat = .active ∧ (withSlot (generic [0x0000#16])).engine = Engine.idle ∧
    ((withSlot (generic [0x0000#16])).slot 0).entries = [0x0000#16] ∧
    guardHolds (entryGuard 0x0000#16) ((withSlot (generic [0x0000#16])).slot 0) 0#32 false = false := by decide

theorem test_hyp_OutcomesDependOnBlockState_fire :
    ((withSlot (button 0#4 0#32 0#32 0#32)).slot 0).sstat = .active ∧
    (withSlot (button 0#4 0#32 0#32 0#32)).slot 0 = ({ withSlot (button 0#4 0#32 0#32 0#32) with arg0 := 9#32 } : State).slot 0 ∧
    (withSlot (button 0#4 0#32 0#32 0#32)).tick = ({ withSlot (button 0#4 0#32 0#32 0#32) with arg0 := 9#32 } : State).tick ∧
    (withSlot (button 0#4 0#32 0#32 0#32)).gpioRead 3#8 =
      ({ withSlot (button 0#4 0#32 0#32 0#32) with arg0 := 9#32 } : State).gpioRead 3#8 := by decide

/-- The same block beside another environment: pin 3 has the same level in both, pin 4 has not. -/
theorem test_hyp_OutcomesDependOnBlockState :
    (Instr.fire 0).format = .cmd32 ∧
    (withSlot (button 0#4 0#32 0#32 0#32)).toBlock =
      ((given [.tick] (withSlot (button 0#4 0#32 0#32 0#32))).setPin 4#8 true).toBlock ∧
    (withSlot (button 0#4 0#32 0#32 0#32)).gpioRead 3#8 =
      ((given [.tick] (withSlot (button 0#4 0#32 0#32 0#32))).setPin 4#8 true).gpioRead 3#8 := by decide

/-- A step from a state with samples left in the engine's field, one that fires and one that does not, leaves it idle. -/
theorem test_hyp_OutcomesDependOnBlockState_engine :
    afterStep (given [.host (.write 0x1C 4 0x20000000#32)] (sampled (button 1#4 100#32 140#32 0#32) 7#32 true)) (·.engine) =
      some Engine.idle ∧
    afterStep (given [.tick] (sampled (generic []) 7#32 true)) (·.engine) = some Engine.idle := by decide

/-- What the host has read and the block has sent does not matter to a step. -/
theorem test_hyp_OutcomesDependOnBlockState_record :
    afterStep (given [.host (.write 0x10 4 5#32)] { State.reset with gpioOut := [.toggle 3#8], reads := [9#32] }) (·.arg0) =
      some 5#32 := by decide

/-- A table whose first entry is passed over and whose second is accepted. -/
def twoEntries : State := withSlot { generic [0x0000#16, 0x0013#16] with pin := 7#8 }

theorem test_hyp_FireRunsItsEntries :
    (twoEntries.slot 0).sstat = .active ∧ (twoEntries.slot 0).entries = [0x0000#16] ++ 0x0013#16 :: [] ∧
    guardInstr 0x0000#16 = some (.gFalse 0#4 0#4 0#4) ∧
    after (.gFalse 0#4 0#4 0#4) (twoEntries.beginFire 0) (·.engine.verdict) = some false ∧
    entrySrc 0x0013#16 = (twoEntries.slot 0).curState ∧
    guardInstr 0x0013#16 = some (.gTrue 0#4 0#4 3#4) ∧ actionInstr 0x0013#16 = some (.aToggle 0#4 0#4 1#4) ∧
    after (.gTrue 0#4 0#4 3#4) (twoEntries.beginFire 0) (·.engine.verdict) = some true ∧
    ((nextOf (exec (.gTrue 0#4 0#4 3#4) (twoEntries.beginFire 0))).bind
      (fun u => nextOf (exec (.aToggle 0#4 0#4 1#4) u))).isSome = true := by decide

theorem test_hyp_ActionResults : State.reset.slot 0 = State.reset.slot State.reset.engine.slot := by decide

theorem test_hyp_AllocTakesLeastFree :
    leastFree State.reset 0 ∧ leastFree (fullState.clearSlot 3) 3 ∧ noneFree fullState := by
  unfold leastFree noneFree; decide

theorem test_hyp_WrtabResult :
    noLiveSlot State.reset 0 ∧ named (withSlot (button 0#4 0#32 0#32 0#32)) 0 0 ∧ named (withSlot (config [])) 0 0 ∧
    named (withSlot (config (List.replicate 16 0#16))) 0 0 ∧
    ((withSlot (config (List.replicate 16 0#16))).slot 0).nent = 16#5 := by
  unfold noLiveSlot named; decide

theorem test_hyp_WrfldResult :
    noLiveSlot State.reset 4 ∧ named (withSlot (button 0#4 0#32 0#32 0#32)) 0 0 ∧ named (withSlot (config [])) 0 0 := by
  unfold noLiveSlot named; decide

/-- The two boundaries of the operand of field 4, and of the field index. -/
theorem test_hyp_WrfldResult_operands : 4 < 5 ∧ 256 ≤ (0x100#32).toNat ∧ (0xFF#32).toNat < 256 := by decide

theorem test_hyp_ValidateFindsFirstFailure :
    validate [] 0#4 = some (.empty, 0) ∧ validate [0x0160#16] 0#4 = some (.badGuard, 0) ∧
    validate [0x0014#16] 0#4 = some (.badAction, 0) ∧ validate [0x0110#16] 0#4 = some (.deadTarget, 0) ∧
    validate [0x0010#16, 0x1060#16] 0#4 = some (.badGuard, 1) ∧ validate [0x0010#16] 2#4 = some (.badInitial, 0) ∧
    validate [0x0053#16] 0#4 = none := by decide

theorem test_hyp_CommitResult :
    noLiveSlot State.reset 0 ∧ named (withSlot (button 0#4 0#32 0#32 0#32)) 0 0 ∧
    ((withSlot (button 0#4 0#32 0#32 0#32)).slot 0).sstat = .active ∧
    named (withSlot (config [0x0010#16])) 0 0 ∧ ((withSlot (config [0x0010#16])).slot 0).sstat = .config ∧
    2 ^ 4 ≤ (0x10#32).toNat ∧ (0x0F#32).toNat < 2 ^ 4 ∧
    validate ((withSlot (config [0x0010#16])).slot 0).entries ((0#32).setWidth 4) = none ∧
    validate ((withSlot (config [0x0010#16])).slot 0).entries ((0x0F#32).setWidth 4) = some (.badInitial, 0) := by
  unfold noLiveSlot named; decide

theorem test_hyp_DestroyFreesSlot :
    noLiveSlot State.reset 0 ∧ named (withSlot (blink 0#4 1#32 0#32)) 0 0 := by
  unfold noLiveSlot named; decide

theorem test_hyp_DebugReads :
    4 ≤ 4 ∧ 3 = (3 : Fin Config.nslot).val ∧ 5 < ((withSlot (button 0#4 0#32 0#32 0#32)).slot 0).nent.toNat ∧
    ((withSlot (button 0#4 0#32 0#32 0#32)).slot 0).nent.toNat ≤ 6 := by decide

theorem test_hyp_RdfldResult : 4 ≤ 4 ∧ 3 = (3 : Fin Config.nslot).val ∧ 8 < 9 ∧ 8 ≤ 8 := by decide

theorem test_hyp_NewButtonResult :
    2 ^ 8 ≤ (0x100#32).toNat ∧ (0xFF#32).toNat < 2 ^ 8 ∧ noneFree fullState ∧ leastFree State.reset 0 := by
  unfold noneFree leastFree; decide

theorem test_hyp_NewBlinkResult :
    2 ^ 8 ≤ (0x100#32).toNat ∧ (0xFF#32).toNat < 2 ^ 8 ∧ noneFree fullState ∧ leastFree (fullState.clearSlot 3) 3 := by
  unfold noneFree leastFree; decide

theorem test_hyp_ButtonAccessors :
    noLiveSlot State.reset 0 ∧ named (withSlot (config [])) 0 0 ∧ ((withSlot (config [])).slot 0).kind ≠ .button ∧
    named (withSlot (button 2#4 0#32 0#32 0#32)) 0 0 ∧
    ((withSlot (button 2#4 0#32 0#32 0#32)).slot 0).kind = .button := by
  unfold noLiveSlot named; decide

theorem test_hyp_NewButtonIsBuildSequence : leastFree State.reset 0 := by unfold leastFree; decide

theorem test_hyp_RevertWinsOverTimeout :
    ((withSlot (button 1#4 0#32 0#32 0#32)).slot 0).sstat = .active ∧
    ((withSlot (button 1#4 0#32 0#32 0#32)).slot 0).entries = buttonTable ∧
    (withSlot (button 1#4 0#32 0#32 0#32)).engine = Engine.idle ∧
    ((withSlot (button 1#4 0#32 0#32 0#32)).slot 0).curState = 1#4 ∧
    (withSlot (button 1#4 0#32 0#32 0#32)).gpioRead 3#8 = false ∧
    ((withSlot (button 3#4 0#32 0#32 0#32)).slot 0).curState = 3#4 ∧
    ((withSlot (button 3#4 0#32 0#32 0#32)).setPin 3#8 true).gpioRead 3#8 = true := by decide

/-- L1-4: a press from 1000 on, PRESSED at 1040. -/
theorem test_hyp_PressLengthIsMeasured :
    ((withSlot (button 0#4 0#32 0#32 0#32)).slot 0).sstat = .active ∧
    ((withSlot (button 0#4 0#32 0#32 0#32)).slot 0).entries = buttonTable ∧
    ((withSlot (button 0#4 0#32 0#32 0#32)).slot 0).curState = 0#4 ∧
    (fireHeld 0 [1000#32, 1040#32] (withSlot (button 0#4 0#32 0#32 0#32))).map (fun u => (u.slot 0).curState) =
      some 2#4 := by decide

theorem test_hyp_BlinkTogglesAfterHalfPeriod :
    ((withSlot (blink 0#4 500#32 0#32)).slot 0).sstat = .active ∧
    ((withSlot (blink 0#4 500#32 0#32)).slot 0).entries = blinkTable ∧
    (((withSlot (blink 0#4 500#32 0#32)).slot 0).curState = 0#4 ∧ ((withSlot (blink 1#4 500#32 0#32)).slot 0).curState = 1#4) ∧
    (withSlot (blink 0#4 500#32 0#32)).engine = Engine.idle := by decide

/-- A blink slot in OFF whose pin was driven low. -/
def blinkOff : State := { withSlot (blink 0#4 0#32 0#32) with gpioOut := [.write 5#8 false] }

theorem test_hyp_BlinkPinAgreesWithState :
    (leastFree State.reset 0 ∧ State.reset.arg1.toNat < 2 ^ 8 ∧ after .newBlink State.reset (·.err) = some .ok) ∧
    blinkOff.Inv ∧ (Instr.fire 0).format = .cmd32 ∧ (blinkOff.slot 0).kind = .blink ∧ blinkAgrees blinkOff 0 ∧
    after (.fire 0) blinkOff (fun t => (t.gpioOut, (t.slot 0).sstat)) =
      some (blinkOff.gpioOut ++ [.toggle 5#8], .active) ∧
    after .newBlink { blinkOff with arg1 := 4#32 } (fun t => (t.gpioOut, (t.slot 0).sstat)) =
      some (blinkOff.gpioOut ++ [.write 4#8 false], .active) ∧
    requestPin (.write 4#8 false) ≠ (blinkOff.slot 0).pin := by
  unfold leastFree State.Inv blinkAgrees; decide

theorem test_hyp_ErrorsChangeOnlyErr :
    (Instr.commit 0).format = .cmd32 ∧
    after (.commit 0) (withSlot (config [])) (·.err) = some .badTable ∧
    after (.fire 0) State.reset (·.err) = some .badSlot ∧
    after .delay { State.reset with arg0 := 1#32 } (·.pending) = some (.delay 0#32 1#32) := by decide

theorem test_hyp_InstructionFrames :
    (nextOf (exec .delayUntil State.reset)).isSome = true ∧ (nextOf (exec (.aToggle 0#4 0#4 0#4) State.reset)).isSome = true ∧
    Instr.alloc ≠ .delayUntil ∧ writesTick .alloc = false ∧ writesResult .nop = false ∧ waits .alloc = false ∧
    sends .alloc = false ∧ writesSlots .now = false ∧ (Instr.gTrue 0#4 0#4 0#4).format ≠ .cmd32 ∧
    Instr.alloc.format ≠ .te16Guard ∧ Instr.alloc ≠ .fire 0 := by decide

theorem test_hyp_OtherSlotsUntouched :
    (nextOf (exec (.destroy 0) (withSlot (config [])))).isSome = true ∧
    ¬ mayWriteSlot (.destroy 0) (withSlot (config [])) 1 := by
  unfold mayWriteSlot leastFree; decide

theorem test_hyp_ActiveTableImmutable :
    ((withSlot (button 0#4 0#32 0#32 0#32)).slot 0).sstat = .active ∧
    afterStep (given [.host (.write 0x1C 4 0x20000000#32)] (withSlot (button 0#4 0#32 0#32 0#32)))
      (fun t => (t.slot 0).sstat) = some .active := by decide

theorem test_hyp_PresetStatesStay :
    (withSlot (button 3#4 0#32 0#32 0#32)).Inv ∧ ((withSlot (button 3#4 0#32 0#32 0#32)).slot 0).kind = .button ∧
    (withSlot (blink 1#4 0#32 0#32)).Inv ∧ ((withSlot (blink 1#4 0#32 0#32)).slot 0).kind = .blink := by
  unfold State.Inv; decide

theorem test_hyp_ResetIsInvariant : ((given [.tick] State.reset).setPin 3#8 true).resetState := by
  unfold State.resetState; decide

theorem test_hyp_StepKeepsInvariant :
    (given [.host (.write 0x1C 4 0x20000000#32)] (withSlot (button 0#4 0#32 0#32 0#32))).Inv ∧
    (nextOf (step (given [.host (.write 0x1C 4 0x20000000#32)] (withSlot (button 0#4 0#32 0#32 0#32))))).isSome = true := by
  unfold State.Inv; decide

end Sys2Proof.Tests
end

section
/-! The step without an input and the end of a host program (00_scope.md R21, 44_timebase.md R146, R147, R158). -/

namespace Sys2Proof.Machine

/-! ### The comparison DELAY_UNTIL waits on -/

/-- The sign bit of a difference is clear exactly in the lower half of the circle (44_timebase.md R149; log entry 12). -/
theorem deadlineReached_iff {now deadline : Word} :
    deadlineReached now deadline = true ↔ (now - deadline).toNat < 2 ^ 31 := by
  rw [deadlineReached, Bool.not_eq_true', BitVec.msb_eq_false_iff_two_mul_lt]
  omega

/-! ### The tick step while a delay is pending -/

theorem State.tickStep_of_delay {s : State} {start n : Word} (h : s.pending = .delay start n) :
    s.tickStep =
      if n.toNat ≤ (s.tick + 1#32 - start).toNat then
        { s with tick := s.tick + 1#32, pending := .none, err := .ok }
      else { s with tick := s.tick + 1#32 } := by
  simp [State.tickStep, State.completePending, h, elapsedAtLeast, State.completeDelay]

theorem State.tickStep_of_delayUntil {s : State} {target : Word} (h : s.pending = .delayUntil target) :
    s.tickStep =
      if (s.tick + 1#32 - target).toNat < 2 ^ 31 then
        { s with tick := s.tick + 1#32, arg0 := s.tick + 1#32, result := s.tick + 1#32, pending := .none, err := .ok }
      else { s with tick := s.tick + 1#32 } := by
  simp only [State.tickStep, State.completePending, h, deadlineReached_iff, State.completeDelayUntil]

/-! ### The step when no input can be taken -/

theorem idleStep_of_enabled {s t : State} (h : s.tickEn = true) (ht : s.tickStep = t) : idleStep s = .next t := by
  simp [idleStep, h, ht]

theorem idleStep_of_waiting {s : State} (h : s.tickEn = false) (hp : s.pending = .none) : idleStep s = .next s := by
  simp [idleStep, h, State.busy_eq_false hp]

theorem idleStep_of_stalled {s : State} (h : s.tickEn = false) (hp : s.pending ≠ .none) :
    idleStep s = .fault .stuck := by
  simp [idleStep, h, State.busy_eq_true hp]

theorem step_of_noneComes {s : State} (h : Spec.noneComes s) : step s = idleStep { s with engine := Engine.idle } :=
  runStep_of_none (State.takeInput_eq_none.mpr h)

/-! ### Steps that leave the host nothing to do -/

/-- A tick event with no delay pending starts none and takes no input. -/
theorem State.tickEvent_of_none {s : State} (hp : s.pending = .none) :
    s.tickEvent.pending = .none ∧ s.tickEvent.inputs = s.inputs := by
  rw [State.tickEvent, State.tickStep_of_none hp]
  split
  · exact ⟨hp, rfl⟩
  · exact ⟨hp, rfl⟩

/-- With no delay pending the step without an input is that of a tick event. -/
theorem idleStep_of_none {s : State} (hp : s.pending = .none) : idleStep s = .next s.tickEvent := by
  cases ht : s.tickEn with
  | true => exact idleStep_of_enabled ht (by rw [State.tickEvent, if_pos ht])
  | false => simp [idleStep_of_waiting ht hp, State.tickEvent, ht]

/-- An input that is no host access always answers, starts no delay and leaves the other inputs. -/
theorem runInput_of_not_host {i : Input} {s : State} (hi : i.isHost = false) (hp : s.pending = .none) :
    ∃ t, runInput i s = .next t ∧ t.pending = .none ∧ t.inputs = s.inputs := by
  cases i with
  | host a => cases hi
  | tick => exact ⟨s.tickEvent, rfl, State.tickEvent_of_none hp⟩
  | pin p b => exact ⟨s.setPin p b, rfl, hp, rfl⟩
  | reset => exact ⟨s.resetBlock, rfl, rfl, rfl⟩

theorem State.programEnded_iff_filter {s : State} :
    s.programEnded = true ↔ s.pending = .none ∧ s.inputs.filter Input.isHost = [] := by
  simp [State.programEnded_iff, List.filter_eq_nil_iff]

/-- The block goes on after the end of a host program, and the program stays ended (00_scope.md R21). -/
theorem step_of_programEnded {s : State} (h : s.programEnded = true) :
    ∃ t, step s = .next t ∧ t.programEnded = true := by
  obtain ⟨hp, hno⟩ := State.programEnded_iff.mp h
  cases hin : s.inputs with
  | nil =>
    obtain ⟨hpt, hit⟩ := State.tickEvent_of_none (s := { s with engine := Engine.idle }) hp
    refine ⟨_, (step_of_noneComes (.inl ⟨hp, hin⟩)).trans (idleStep_of_none hp), ?_⟩
    exact State.programEnded_iff.mpr ⟨hpt, by rw [hit]; exact hno⟩
  | cons i rest =>
    rw [hin, List.forall_mem_cons] at hno
    obtain ⟨hi, hrest⟩ := hno
    obtain ⟨t, ht, hpt, hit⟩ :=
      runInput_of_not_host (s := { s with engine := Engine.idle, inputs := rest }) hi hp
    refine ⟨t, (runStep_of_some (State.takeInput_head hp hin)).trans ht, ?_⟩
    exact State.programEnded_iff.mpr ⟨hpt, by rw [hit]; exact hrest⟩

end Sys2Proof.Machine

namespace Sys2Proof.Spec
open Sys2Proof.Machine

/-- Settles O25: the step without an input is `idleStep`, whose arms are one lemma each, and after the end of a host program
no step takes a host access, so none can start a delay. -/
theorem stepsWithoutInput : Obligations.StepsWithoutInput := by
  unfold Obligations.StepsWithoutInput
  refine ⟨fun s hs => ?_, fun s => State.programEnded_iff_filter, fun s => step_of_programEnded⟩
  rw [step_of_noneComes hs]
  refine ⟨fun ht hp => ?_, fun start n ht hp => ?_, fun target ht hp => ?_, fun ht hp => ?_, fun ht hp => ?_⟩
  · exact idleStep_of_enabled ht (State.tickStep_of_none hp)
  · exact idleStep_of_enabled ht (State.tickStep_of_delay hp)
  · exact idleStep_of_enabled ht (State.tickStep_of_delayUntil hp)
  · exact idleStep_of_waiting ht hp
  · exact idleStep_of_stalled ht hp

end Sys2Proof.Spec
end

section
/-! What an instruction can do: the slot it writes and what becomes of it, and every effect of a command, a guard and an
action (30_encoding.md R81, R87, R88). -/

namespace Sys2Proof.Machine
open Sys2Proof.Spec

/-! ### What can become of a slot -/

/-- What an instruction of the command table, or a reset, makes of a slot that it writes: the slot before and after,
with the check that the instruction has passed. -/
inductive SlotWrite : Slot → Slot → Prop
  /-- DESTROY, a COMMIT that fails validation, and a reset (R94, R116, R117, R181) -/
  | cleared (x : Slot) : SlotWrite x Slot.free
  /-- ALLOC (R110) -/
  | allocated {x : Slot} (hx : x.sstat = .free) : SlotWrite x { Slot.free with sstat := .config, kind := .generic }
  /-- NEW_BUTTON (R126) -/
  | button {x : Slot} (hx : x.sstat = .free) (debounce : Word) (pin : PinId) : SlotWrite x (buttonSlotOf debounce pin)
  /-- NEW_BLINK (R141) -/
  | blink {x : Slot} (hx : x.sstat = .free) (period : Word) (pin : PinId) (t : Word) :
      SlotWrite x (blinkSlotOf period pin t)
  /-- WRTAB (R111) -/
  | appended {x : Slot} (hx : x.sstat = .config) (hn : x.nent.toNat ≠ 16) (e : Entry) : SlotWrite x (x.append e)
  /-- WRFLD (R112) -/
  | fieldSet {x : Slot} (hx : x.sstat = .config) (f : Nat) (v : Word) : SlotWrite x (x.setField f v)
  /-- a COMMIT that succeeds (R115) -/
  | committed {x : Slot} (hx : x.sstat = .config) {q : Nibble} (hv : validate x.entries q = none) :
      SlotWrite x { x with curState := q, sstat := .active }
  /-- RESET_DURATION (R136) -/
  | durationReset {x : Slot} (hx : x.sstat ≠ .free) : SlotWrite x { x with duration := 0#32 }
  /-- FIRE (R95, R101, R102) -/
  | fired {x y : Slot} (hx : x.sstat = .active) (hs : y.sstat = x.sstat) (hk : y.kind = x.kind)
      (hn : y.nent = x.nent) (ht : y.table = x.table)
      (hc : y.curState = x.curState ∨ ∃ e ∈ x.entries, y.curState = entryTgt e) : SlotWrite x y

/-! ### What a command can do -/

/-- Every way a command can end, with what it takes to end so. -/
inductive CommandEffect (i : Instr) (s : State) : State → Prop
  /-- an error: only STATUS.ERR is written (R163) -/
  | refused (e : Err) : CommandEffect i s (s.raise e)
  /-- success with nothing to do -/
  | answered : CommandEffect i s s.ok
  /-- a read of the block's state -/
  | result (hr : writesResult i = true) (v : Word) : CommandEffect i s (s.setResult v).ok
  /-- TICKSET and TICKSTEP (R159, R160) -/
  | ticked (hi : writesTick i = true) (v : Word) : CommandEffect i s { s with tick := v, err := .ok }
  /-- a delay is left pending (R154, R156) -/
  | waiting (hw : waits i = true) (p : Pending) : CommandEffect i s { s with pending := p }
  /-- DELAY_UNTIL whose target is reached (R156) -/
  | reached (hi : i = .delayUntil) : CommandEffect i s { s with arg0 := s.tick, result := s.tick, err := .ok }
  /-- one slot is written -/
  | wrote (hs : writesSlots i = true) {k : Fin Config.nslot} {y : Slot} (hk : mayWriteSlot i s k)
      (hy : SlotWrite (s.slot k) y) : CommandEffect i s (s.setSlot k y).ok
  /-- one slot is written and RESULT with it -/
  | wroteResult (hs : writesSlots i = true) (hr : writesResult i = true) {k : Fin Config.nslot} {y : Slot}
      (hk : mayWriteSlot i s k) (hy : SlotWrite (s.slot k) y) (v : Word) :
      CommandEffect i s ((s.setSlot k y).setResult v).ok
  /-- NEW_BLINK (R141) -/
  | drove (hi : i = .newBlink) {k : Fin Config.nslot} {y : Slot} (hk : mayWriteSlot i s k)
      (hy : SlotWrite (s.slot k) y) (r : GpioRequest) (v : Word) :
      CommandEffect i s (((s.setSlot k y).sendGpio r).setResult v).ok
  /-- a COMMIT that fails validation (R116) -/
  | rejected {k : Fin Config.nslot} (hi : i = .commit k.val) (v : Word) :
      CommandEffect i s (((s.clearSlot k).setResult v).raise .badTable)
  /-- FIRE of an ACTIVE slot, whether or not a transition was taken (R95) -/
  | fired {k : Fin Config.nslot} {y : Slot} (hi : i = .fire k.val) (hy : SlotWrite (s.slot k) y)
      (out : List GpioRequest) :
      CommandEffect i s
        { s with slots := s.slots.set k y, gpioOut := s.gpioOut ++ out, err := .ok, engine := Engine.idle }

theorem mayWriteSlot_of_named {i : Instr} {s : State} {k : Fin Config.nslot} (h : slotNamed i = some k.val) :
    mayWriteSlot i s k := .inl h

theorem mayWriteSlot_of_firstFree {i : Instr} {s : State} {k : Fin Config.nslot}
    (hi : i = .alloc ∨ i = .newButton ∨ i = .newBlink) (h : s.firstFree = some k) : mayWriteSlot i s k :=
  .inr (.inl ⟨hi, State.firstFree_eq_some.mp h⟩)

theorem State.sstat_of_firstFree {s : State} {k : Fin Config.nslot} (h : s.firstFree = some k) :
    (s.slot k).sstat = .free := (State.firstFree_eq_some.mp h).1

/-! ### One lemma per command that checks its operands -/

theorem execDelay_effect {s t : State} (h : execDelay s = .next t) : CommandEffect .delay s t := by
  unfold execDelay at h
  split at h <;> cases h
  · exact .answered
  · exact .waiting rfl _

theorem execDelayUntil_effect {s t : State} (h : execDelayUntil s = .next t) : CommandEffect .delayUntil s t := by
  unfold execDelayUntil at h
  split at h <;> cases h
  · exact .reached rfl
  · exact .waiting rfl _

theorem execAlloc_effect {s t : State} (h : execAlloc s = .next t) : CommandEffect .alloc s t := by
  unfold execAlloc at h
  split at h <;> cases h
  case h_1 => exact .refused _
  case h_2 k hk =>
    exact .wroteResult rfl rfl (mayWriteSlot_of_firstFree (by simp) hk) (.allocated (State.sstat_of_firstFree hk)) _

theorem execNewButton_effect {s t : State} (h : execNewButton s = .next t) : CommandEffect .newButton s t := by
  unfold execNewButton at h
  split at h
  · cases h; exact .refused _
  · split at h <;> cases h
    case h_1 => exact .refused _
    case h_2 k hk =>
      exact .wroteResult rfl rfl (mayWriteSlot_of_firstFree (by simp) hk) (.button (State.sstat_of_firstFree hk) _ _) _

theorem execNewBlink_effect {s t : State} (h : execNewBlink s = .next t) : CommandEffect .newBlink s t := by
  unfold execNewBlink at h
  split at h
  · cases h; exact .refused _
  · split at h <;> cases h
    case h_1 => exact .refused _
    case h_2 k hk =>
      exact .drove rfl (mayWriteSlot_of_firstFree (by simp) hk) (.blink (State.sstat_of_firstFree hk) _ _ _) _ _

theorem execWrtab_effect {s t : State} {n : Nat} (h : execWrtab n s = .next t) : CommandEffect (.wrtab n) s t := by
  unfold execWrtab at h
  split at h
  case h_1 => cases h; exact .refused _
  case h_2 k hk =>
    obtain ⟨rfl, hc⟩ := State.configSlot_eq_ok.mp hk
    split at h
    · cases h; exact .refused _
    · split at h <;> cases h
      · exact .refused _
      · rename_i hn
        exact .wroteResult rfl rfl (mayWriteSlot_of_named rfl) (.appended hc hn _) _

theorem execWrfld_effect {s t : State} {n f : Nat} (h : execWrfld n f s = .next t) :
    CommandEffect (.wrfld n f) s t := by
  unfold execWrfld at h
  split at h
  case h_1 => cases h; exact .refused _
  case h_2 k hk =>
    obtain ⟨rfl, hc⟩ := State.configSlot_eq_ok.mp hk
    split at h
    · cases h; exact .refused _
    · split at h <;> cases h
      · exact .refused _
      · exact .wrote rfl (mayWriteSlot_of_named rfl) (.fieldSet hc _ _)

theorem execCommit_effect {s t : State} {n : Nat} (h : execCommit n s = .next t) : CommandEffect (.commit n) s t := by
  unfold execCommit at h
  split at h
  case h_1 => cases h; exact .refused _
  case h_2 k hk =>
    obtain ⟨rfl, hc⟩ := State.configSlot_eq_ok.mp hk
    split at h
    · cases h; exact .refused _
    · split at h <;> cases h
      · exact .rejected rfl _
      · exact .wrote rfl (mayWriteSlot_of_named rfl) (.committed hc ‹_›)

theorem execDestroy_effect {s t : State} {n : Nat} (h : execDestroy n s = .next t) :
    CommandEffect (.destroy n) s t := by
  unfold execDestroy at h
  split at h <;> cases h
  case h_1 => exact .refused _
  case h_2 k hk =>
    obtain ⟨rfl, -⟩ := State.liveSlot_eq_ok.mp hk
    exact .wrote rfl (mayWriteSlot_of_named rfl) (.cleared _)

theorem execResetDuration_effect {s t : State} {n : Nat} (h : execResetDuration n s = .next t) :
    CommandEffect (.resetDuration n) s t := by
  unfold execResetDuration at h
  split at h <;> cases h
  case h_1 => exact .refused _
  case h_2 k hk =>
    obtain ⟨rfl, hlive, -⟩ := State.buttonSlot_eq_ok.mp hk
    exact .wrote rfl (mayWriteSlot_of_named rfl) (.durationReset hlive)

/-- What a FIRE of an ACTIVE slot does: it writes that slot, sends requests, and ends with the samples gone
(R51, R95). -/
theorem State.fireSlot_eq {s : State} {k : Fin Config.nslot} (ha : (s.slot k).sstat = .active) :
    ∃ y out, SlotWrite (s.slot k) y ∧ s.fireSlot k =
      { s with slots := s.slots.set k y, gpioOut := s.gpioOut ++ out, err := .ok, engine := Engine.idle } := by
  rcases scanTable_cases (s.slot k).curState (s.slot k).entries (s.beginFire k) with
    ⟨-, b, hskip⟩ | ⟨before, e, after, hes, -, -, -, haccept⟩
  · refine ⟨s.slot k, [], .fired ha rfl rfl rfl rfl (.inl rfl), ?_⟩
    rw [State.fireSlot, hskip, State.set_slot_self, List.append_nil]
    rfl
  · obtain ⟨x, out, hact, hsstat, hkind, -, hnent, -, -, htable⟩ :=
      runAction_cases (entryAction e) (runGuard (entryGuard e) (s.beginFire k))
    rw [runGuard_eq] at hact hsstat hkind hnent htable
    have he : e ∈ (s.slot k).entries := by simp [hes]
    refine ⟨{ x with curState := entryTgt e }, out, .fired ha hsstat hkind hnent htable (.inr ⟨e, he, rfl⟩), ?_⟩
    rw [State.fireSlot, haccept, runGuard_eq, hact]
    simp [State.endFire, State.ok, State.setCurState, State.setFired, State.setSlot, State.fired, State.slot,
      State.beginFire, State.setVerdict]

theorem execFire_effect {s t : State} {n : Nat} (h : execFire n s = .next t) : CommandEffect (.fire n) s t := by
  unfold execFire at h
  split at h <;> cases h
  case h_1 => exact .refused _
  case h_2 k hk =>
    obtain ⟨rfl, ha⟩ := State.activeSlot_eq_ok.mp hk
    obtain ⟨y, out, hy, hfire⟩ := State.fireSlot_eq ha
    rw [hfire]
    exact .fired rfl hy out

/-! ### Every instruction -/

/-- What an action row can do (R88, R101): nothing, or write the slot being fired and, for A_TOGGLE, send a request. -/
inductive ActionEffect (i : Instr) (s : State) : State → Prop
  | none : ActionEffect i s s
  | timed (hs : writesSlots i = true) (x : Slot) : ActionEffect i s (s.setFired x)
  | toggled (hs : writesSlots i = true) (hg : sends i = true) (r : GpioRequest) (x : Slot) :
      ActionEffect i s ((s.sendGpio r).setFired x)

/-- Everything an instruction can do, by its format. -/
theorem exec_effect {i : Instr} {s t : State} (h : exec i s = .next t) :
    (i.format = .cmd32 ∧ CommandEffect i s t) ∨ (i.format = .te16Guard ∧ ∃ b, t = s.setVerdict b) ∨
      (i.format = .te16Action ∧ ActionEffect i s t) := by
  cases i with
  | nop => cases h; exact .inl ⟨rfl, .answered⟩
  | now => cases h; exact .inl ⟨rfl, .result rfl _⟩
  | delay => exact .inl ⟨rfl, execDelay_effect h⟩
  | delayUntil => exact .inl ⟨rfl, execDelayUntil_effect h⟩
  | tickset | tickstep =>
    simp only [exec, execTickset, execTickstep] at h
    split at h <;> cases h
    · exact .inl ⟨rfl, .refused _⟩
    · exact .inl ⟨rfl, .ticked rfl _⟩
  | alloc => exact .inl ⟨rfl, execAlloc_effect h⟩
  | wrtab => exact .inl ⟨rfl, execWrtab_effect h⟩
  | wrfld => exact .inl ⟨rfl, execWrfld_effect h⟩
  | commit => exact .inl ⟨rfl, execCommit_effect h⟩
  | newButton => exact .inl ⟨rfl, execNewButton_effect h⟩
  | newBlink => exact .inl ⟨rfl, execNewBlink_effect h⟩
  | destroy => exact .inl ⟨rfl, execDestroy_effect h⟩
  | fire => exact .inl ⟨rfl, execFire_effect h⟩
  | resetDuration => exact .inl ⟨rfl, execResetDuration_effect h⟩
  | rdstate | getDuration | checkActivity =>
    simp only [exec, execRdstate, execGetDuration, execCheckActivity] at h
    split at h <;> cases h
    · exact .inl ⟨rfl, .refused _⟩
    · exact .inl ⟨rfl, .result rfl _⟩
  | rdfld | rdtab =>
    simp only [exec, execRdfld, execRdtab] at h
    split at h
    · cases h; exact .inl ⟨rfl, .refused _⟩
    · split at h <;> cases h
      · exact .inl ⟨rfl, .refused _⟩
      · exact .inl ⟨rfl, .result rfl _⟩
  | gFalse | gTrue | gPinPressed | gPinReleased | gTimeout | gHalfPeriod =>
    cases h; exact .inr (.inl ⟨rfl, _, rfl⟩)
  | aNone => cases h; exact .inr (.inr ⟨rfl, .none⟩)
  | aPressStart | aReleaseStart => cases h; exact .inr (.inr ⟨rfl, .timed rfl _⟩)
  | aToggle => cases h; exact .inr (.inr ⟨rfl, .toggled rfl rfl _ _⟩)

theorem exec_command_effect {i : Instr} {s t : State} (hf : i.format = .cmd32) (h : exec i s = .next t) :
    CommandEffect i s t := by
  rcases exec_effect h with ⟨-, he⟩ | ⟨hg, -⟩ | ⟨ha, -⟩
  · exact he
  · rw [hf] at hg; cases hg
  · rw [hf] at ha; cases ha

end Sys2Proof.Machine
end

section
/-! What a step can do to a slot, and the invariant of the slots (10_state.md section 7). -/

namespace Sys2Proof.Machine
open Sys2Proof.Spec

/-! ### What a slot keeps -/

/-- WRFLD writes none of the life cycle, the state and the table (R112). -/
theorem Slot.setField_frame (f : Nat) (v : Word) (x : Slot) :
    (x.setField f v).sstat = x.sstat ∧ (x.setField f v).kind = x.kind ∧ (x.setField f v).curState = x.curState ∧
      (x.setField f v).nent = x.nent ∧ (x.setField f v).table = x.table := by
  unfold Slot.setField
  split <;> exact ⟨rfl, rfl, rfl, rfl, rfl⟩

theorem Slot.entries_congr {x y : Slot} (hn : y.nent = x.nent) (ht : y.table = x.table) : y.entries = x.entries := by
  rw [Slot.entries, hn, ht, Slot.entries]

theorem Slot.tableWf_congr {x y : Slot} (hn : y.nent = x.nent) (ht : y.table = x.table) : y.tableWf = x.tableWf := by
  rw [Slot.tableWf, hn, ht, Slot.tableWf]

/-- A write of a slot that is ACTIVE before and after keeps its table, NENT and KIND (R53). -/
theorem SlotWrite.table_of_active {x y : Slot} (h : SlotWrite x y) (hx : x.sstat = .active) (hy : y.sstat = .active) :
    y.table = x.table ∧ y.nent = x.nent ∧ y.kind = x.kind := by
  cases h with
  | cleared => cases hy
  | allocated => cases hy
  | button hf => rw [hx] at hf; cases hf
  | blink hf => rw [hx] at hf; cases hf
  | appended hc => rw [hx] at hc; cases hc
  | fieldSet hc => rw [hx] at hc; cases hc
  | committed hc => rw [hx] at hc; cases hc
  | durationReset => exact ⟨rfl, rfl, rfl⟩
  | fired _ _ hk hn ht => exact ⟨ht, hn, hk⟩

/-! ### What a step can do to a slot -/

/-- A command writes at most one slot, and only one it may write. -/
theorem CommandEffect.slots_cases {i : Instr} {s t : State} (h : CommandEffect i s t) :
    t.slots = s.slots ∨
      ∃ k y, mayWriteSlot i s k ∧ SlotWrite (s.slot k) y ∧ t.slots = s.slots.set k y := by
  cases h with
  | refused | answered | result | ticked | waiting | reached => exact .inl rfl
  | wrote _ hk hy | wroteResult _ _ hk hy | drove _ hk hy => exact .inr ⟨_, _, hk, hy, rfl⟩
  | rejected hi => exact .inr ⟨_, _, mayWriteSlot_of_named (by rw [hi]; rfl), .cleared _, rfl⟩
  | fired hi hy => exact .inr ⟨_, _, mayWriteSlot_of_named (by rw [hi]; rfl), hy, rfl⟩

theorem CommandEffect.engine_cases {i : Instr} {s t : State} (h : CommandEffect i s t) :
    t.engine = s.engine ∨ t.engine = Engine.idle := by
  cases h with
  | refused | answered | result | ticked | waiting | reached | wrote | wroteResult | drove | rejected => exact .inl rfl
  | fired => exact .inr rfl

theorem State.slot_of_slots_eq {s t : State} (h : t.slots = s.slots) (k : Fin Config.nslot) : t.slot k = s.slot k := by
  rw [State.slot, h, State.slot]

theorem State.slot_of_slots_set {s t : State} {k : Fin Config.nslot} {y : Slot} (h : t.slots = s.slots.set k y)
    (j : Fin Config.nslot) : t.slot j = if j = k then y else s.slot j :=
  (State.slot_of_slots_eq (s := s.setSlot k y) h j).trans (s.slot_setSlot k j y)

/-- A command leaves a slot or writes it as `SlotWrite` says. -/
theorem CommandEffect.slot_cases {i : Instr} {s t : State} (h : CommandEffect i s t) (j : Fin Config.nslot) :
    t.slot j = s.slot j ∨ SlotWrite (s.slot j) (t.slot j) := by
  rcases h.slots_cases with hsame | ⟨k, y, -, hy, hset⟩
  · exact .inl (State.slot_of_slots_eq hsame j)
  · rw [State.slot_of_slots_set hset j]
    split
    case isTrue hjk => subst hjk; exact .inr hy
    case isFalse => exact .inl rfl

@[simp] theorem State.slot_resetBlock (s : State) (k : Fin Config.nslot) : s.resetBlock.slot k = Slot.free :=
  State.slot_reset k

/-- A tick step writes no slot, starts no FIRE, takes no input and reads nothing. -/
theorem State.tickStep_frame (s : State) :
    s.tickStep.slots = s.slots ∧ s.tickStep.engine = s.engine ∧ s.tickStep.inputs = s.inputs ∧
      s.tickStep.reads = s.reads := by
  rcases s.tickStep_cases with h | h | h <;> rw [h] <;> exact ⟨rfl, rfl, rfl, rfl⟩

/-- All a step can do to a slot, and that no FIRE is in progress after it. -/
theorem step_slot_cases {s t : State} (h : step s = .next t) :
    t.engine = Engine.idle ∧ ∀ k, t.slot k = s.slot k ∨ SlotWrite (s.slot k) (t.slot k) := by
  obtain ⟨rest, u, hu, hcases⟩ := runStep_cases h
  have hslot : ∀ k, u.slot k = s.slot k := fun k => by rw [hu]; rfl
  have hengine : u.engine = Engine.idle := by rw [hu]
  simp only [← hslot]
  rcases hcases with rfl | rfl | ⟨p, b, rfl⟩ | rfl | ⟨off, rfl⟩ | ⟨b, rfl⟩ | ⟨v, rfl⟩ | ⟨v, rfl⟩ | rfl |
    ⟨c, i, hdecode, hexec⟩
  · exact ⟨hengine, fun k => .inl rfl⟩
  · obtain ⟨hslots, hkept, -, -⟩ := u.tickStep_frame
    exact ⟨hkept.trans hengine, fun k => .inl (State.slot_of_slots_eq hslots k)⟩
  · exact ⟨hengine, fun k => .inl rfl⟩
  · exact ⟨rfl, fun k => .inr (by rw [State.slot_resetBlock]; exact .cleared _)⟩
  · exact ⟨hengine, fun k => .inl rfl⟩
  · exact ⟨hengine, fun k => .inl rfl⟩
  · exact ⟨hengine, fun k => .inl rfl⟩
  · exact ⟨hengine, fun k => .inl rfl⟩
  · exact ⟨hengine, fun k => .inl rfl⟩
  · have heffect := exec_command_effect (decodeCommand_format hdecode) hexec
    refine ⟨?_, heffect.slot_cases⟩
    rcases heffect.engine_cases with hkept | hidle
    · exact hkept.trans hengine
    · exact hidle

/-! ### Good slots -/

theorem Slot.good_of_config {x : Slot} (hx : x.sstat = .config) :
    x.good = true ↔ x.tableWf = true ∧ x.kind = .generic ∧ x.curState = 0#4 := by
  simp [Slot.good, hx]

theorem Slot.good_of_active {x : Slot} (hx : x.sstat = .active) :
    x.good = true ↔ x.tableWf = true ∧ tableValid x.entries = true ∧ isSource x.entries x.curState = true ∧
      presetTable x.kind x.entries = true := by
  simp [Slot.good, hx, and_assoc]

theorem Slot.eq_free_of_good {x : Slot} (hx : x.sstat = .free) (h : x.good = true) : x = Slot.free := by
  simp only [Slot.good, hx, Bool.and_eq_true, decide_eq_true_iff] at h
  exact h.2

theorem Slot.good_free : Slot.free.good = true := by decide

/-- Goodness is about the life cycle, the kind, the state and the table alone, but for a FREE slot. -/
theorem Slot.good_congr {x y : Slot} (hx : x.sstat ≠ .free) (hs : y.sstat = x.sstat) (hk : y.kind = x.kind)
    (hc : y.curState = x.curState) (hn : y.nent = x.nent) (ht : y.table = x.table) (h : x.good = true) :
    y.good = true := by
  cases hst : x.sstat with
  | free => exact absurd hst hx
  | config =>
    rw [Slot.good_of_config (hs.trans hst), Slot.tableWf_congr hn ht, hk, hc]
    exact (Slot.good_of_config hst).mp h
  | active =>
    rw [Slot.good_of_active (hs.trans hst), Slot.tableWf_congr hn ht, Slot.entries_congr hn ht, hk, hc]
    exact (Slot.good_of_active hst).mp h

theorem buttonSlotOf_good (debounce : Word) (pin : PinId) : (buttonSlotOf debounce pin).good = true :=
  Slot.good_congr (x := buttonSlotOf 0#32 0#8) (by decide) rfl rfl rfl rfl rfl (by decide)

theorem blinkSlotOf_good (period : Word) (pin : PinId) (t : Word) : (blinkSlotOf period pin t).good = true :=
  Slot.good_congr (x := blinkSlotOf 0#32 0#8 0#32) (by decide) rfl rfl rfl rfl rfl (by decide)

/-- A table's targets are source states of it (R52(c)). -/
theorem isSource_target_of_tableValid {es : List Entry} {e : Entry} (h : tableValid es = true) (he : e ∈ es) :
    isSource es (entryTgt e) = true := by
  simp only [tableValid, Bool.and_eq_true, List.all_eq_true] at h
  exact (h.2 e he).2

/-! ### Validation -/

theorem entryFailure_eq_none {es : List Entry} {e : Entry} :
    entryFailure es e = none ↔
      (entryGuard e).toNat ≤ 5 ∧ (entryAction e).toNat ≤ 3 ∧ isSource es (entryTgt e) = true := by
  unfold entryFailure
  split
  · simp; omega
  · split
    · simp; omega
    · split <;> simp_all

theorem firstFailure_eq_none {all : List Entry} {i : Nat} {es : List Entry} :
    firstFailure all i es = none ↔ ∀ e ∈ es, entryFailure all e = none := by
  induction es generalizing i with
  | nil => simp [firstFailure]
  | cons e es ih =>
    unfold firstFailure
    split
    case h_1 r hr => simp [hr]
    case h_2 hr => simp [hr, ih]

/-- COMMIT accepts a valid table with a source state of it to start in (R113, R115). -/
theorem validate_eq_none {es : List Entry} {q : Nibble} :
    validate es q = none ↔ tableValid es = true ∧ isSource es q = true := by
  have hall : firstFailure es 0 es = none ↔
      es.all (fun e => decide ((entryGuard e).toNat ≤ 5) && decide ((entryAction e).toNat ≤ 3) &&
        isSource es (entryTgt e)) = true := by
    simp [firstFailure_eq_none, entryFailure_eq_none, and_assoc]
  unfold validate tableValid
  rw [Bool.and_eq_true, ← hall]
  split
  case isTrue he => simp [he]
  case isFalse he =>
    split
    case h_1 r hr => simp [hr]
    case h_2 hr => simp [hr, he]

/-! ### The invariant -/

/-- Every write of a slot keeps it good. -/
theorem SlotWrite.good {x y : Slot} (h : SlotWrite x y) (hx : x.good = true) : y.good = true := by
  cases h with
  | cleared => exact Slot.good_free
  | allocated => decide
  | button => exact buttonSlotOf_good _ _
  | blink => exact blinkSlotOf_good _ _ _
  | appended hc hn e =>
    obtain ⟨hwf, hkind, hcur⟩ := (Slot.good_of_config hc).mp hx
    exact (Slot.good_of_config (x := x.append e) hc).mpr ⟨Slot.append_tableWf e hwf hn, hkind, hcur⟩
  | fieldSet hc f v =>
    obtain ⟨hs, hk, hcur, hn, ht⟩ := x.setField_frame f v
    exact Slot.good_congr (by simp [hc]) hs hk hcur hn ht hx
  | committed hc hv =>
    obtain ⟨hwf, hkind, -⟩ := (Slot.good_of_config hc).mp hx
    obtain ⟨hvalid, hsource⟩ := validate_eq_none.mp hv
    exact (Slot.good_of_active rfl).mpr ⟨hwf, hvalid, hsource, by simp [hkind, presetTable]⟩
  | durationReset hlive => exact Slot.good_congr hlive rfl rfl rfl rfl rfl hx
  | fired ha hs hk hn ht hc =>
    obtain ⟨hwf, hvalid, hsource, hpreset⟩ := (Slot.good_of_active ha).mp hx
    rw [Slot.good_of_active (hs.trans ha), Slot.tableWf_congr hn ht, Slot.entries_congr hn ht, hk]
    refine ⟨hwf, hvalid, ?_, hpreset⟩
    rcases hc with hsame | ⟨e, he, htgt⟩
    · rw [hsame]; exact hsource
    · rw [htgt]; exact isSource_target_of_tableValid hvalid he

/-- A preset slot is in a source state of its preset table (R54). -/
theorem Slot.preset_of_good {x : Slot} (h : x.good = true) (hk : x.kind ≠ .generic) :
    isSource x.entries x.curState = true ∧ presetTable x.kind x.entries = true := by
  cases hst : x.sstat with
  | free => exact absurd (by rw [Slot.eq_free_of_good hst h]; rfl) hk
  | config =>
    obtain ⟨-, hgeneric, -⟩ := (Slot.good_of_config hst).mp h
    exact absurd hgeneric hk
  | active =>
    obtain ⟨-, -, hsource, hpreset⟩ := (Slot.good_of_active hst).mp h
    exact ⟨hsource, hpreset⟩

theorem toNat_lt_of_isSource_buttonTable : ∀ q : Nibble, isSource buttonTable q = true → q.toNat < 4 := by decide

theorem toNat_lt_of_isSource_blinkTable : ∀ q : Nibble, isSource blinkTable q = true → q.toNat < 2 := by decide

end Sys2Proof.Machine

namespace Sys2Proof.Spec
open Sys2Proof.Machine

/-- Settles O60: a step leaves a slot or writes it as `SlotWrite` says, and every such write keeps the slot good. -/
theorem stepKeepsInvariant : Obligations.StepKeepsInvariant := by
  unfold Obligations.StepKeepsInvariant
  rintro s t ⟨hgood, -⟩ h
  obtain ⟨hengine, hslot⟩ := step_slot_cases h
  refine ⟨fun k => ?_, hengine⟩
  rcases hslot k with hsame | hwrite
  · rw [hsame]; exact hgood k
  · exact hwrite.good (hgood k)

/-- Settles O57: no write of a slot that is ACTIVE before and after reaches its table, NENT or KIND. -/
theorem activeTableImmutable : Obligations.ActiveTableImmutable := by
  unfold Obligations.ActiveTableImmutable
  intro s t k h hs ht
  rcases (step_slot_cases h).2 k with hsame | hwrite
  · rw [hsame]; exact ⟨rfl, rfl, rfl⟩
  · exact hwrite.table_of_active hs ht

/-- Settles O58: a preset slot is in a source state of its own table, whose source states are few. -/
theorem presetStatesStay : Obligations.PresetStatesStay := by
  unfold Obligations.PresetStatesStay
  rintro s k ⟨hgood, -⟩
  refine ⟨fun hk => ?_, fun hk => ?_⟩
  all_goals
    obtain ⟨hsource, hpreset⟩ := Slot.preset_of_good (hgood k) (by simp [hk])
    simp only [presetTable, hk, decide_eq_true_iff] at hpreset
    rw [hpreset] at hsource
  · exact toNat_lt_of_isSource_buttonTable _ hsource
  · exact toNat_lt_of_isSource_blinkTable _ hsource

/-- Settles O59: at reset every slot is FREE, and a state whose block is at reset has the slots of reset. -/
theorem resetIsInvariant : Obligations.ResetIsInvariant := by
  unfold Obligations.ResetIsInvariant
  have hgood : ∀ k, (State.reset.slot k).good = true := fun k => by rw [State.slot_reset]; exact Slot.good_free
  refine ⟨⟨hgood, rfl⟩, ⟨rfl, rfl⟩, ?_⟩
  rintro s ⟨hblock, hengine⟩
  have hslots : s.slots = State.reset.slots := congrArg Block.slots hblock
  refine ⟨⟨fun k => ?_, hengine⟩, congrArg Block.pending hblock⟩
  rw [State.slot_of_slots_eq hslots]
  exact hgood k

end Sys2Proof.Spec
end

section
/-! What an instruction leaves unchanged (10_state.md R29 to R31, R37, R47; 30_encoding.md R81). -/

namespace Sys2Proof.Machine
open Sys2Proof.Spec

/-- No instruction writes TICK_EN, ARG1, the values read, the levels or the inputs. -/
theorem exec_keeps_host {i : Instr} {s t : State} (h : exec i s = .next t) :
    t.tickEn = s.tickEn ∧ t.arg1 = s.arg1 ∧ t.reads = s.reads ∧ t.pins = s.pins ∧ t.inputs = s.inputs := by
  rcases exec_effect h with ⟨-, he⟩ | ⟨-, b, rfl⟩ | ⟨-, he⟩
  · cases he <;> exact ⟨rfl, rfl, rfl, rfl, rfl⟩
  · exact ⟨rfl, rfl, rfl, rfl, rfl⟩
  · cases he <;> exact ⟨rfl, rfl, rfl, rfl, rfl⟩

theorem exec_keeps_arg0 {i : Instr} {s t : State} (h : exec i s = .next t) (hi : i ≠ .delayUntil) :
    t.arg0 = s.arg0 := by
  rcases exec_effect h with ⟨-, he⟩ | ⟨-, b, rfl⟩ | ⟨-, he⟩
  · cases he with
    | reached hu => exact absurd hu hi
    | _ => rfl
  · rfl
  · cases he <;> rfl

theorem exec_keeps_tick {i : Instr} {s t : State} (h : exec i s = .next t) (hi : writesTick i = false) :
    t.tick = s.tick := by
  rcases exec_effect h with ⟨-, he⟩ | ⟨-, b, rfl⟩ | ⟨-, he⟩
  · cases he with
    | ticked hw => rw [hi] at hw; cases hw
    | _ => rfl
  · rfl
  · cases he <;> rfl

theorem exec_keeps_result {i : Instr} {s t : State} (h : exec i s = .next t) (hi : writesResult i = false) :
    t.result = s.result := by
  rcases exec_effect h with ⟨-, he⟩ | ⟨-, b, rfl⟩ | ⟨-, he⟩
  · cases he with
    | result hr | wroteResult _ hr => rw [hi] at hr; cases hr
    | reached hr | drove hr | rejected hr => rw [hr] at hi; cases hi
    | _ => rfl
  · rfl
  · cases he <;> rfl

theorem exec_keeps_pending {i : Instr} {s t : State} (h : exec i s = .next t) (hi : waits i = false) :
    t.pending = s.pending := by
  rcases exec_effect h with ⟨-, he⟩ | ⟨-, b, rfl⟩ | ⟨-, he⟩
  · cases he with
    | waiting hw => rw [hi] at hw; cases hw
    | _ => rfl
  · rfl
  · cases he <;> rfl

theorem exec_keeps_slots {i : Instr} {s t : State} (h : exec i s = .next t) (hi : writesSlots i = false) :
    t.slots = s.slots := by
  rcases exec_effect h with ⟨-, he⟩ | ⟨-, b, rfl⟩ | ⟨-, he⟩
  · cases he with
    | wrote hw | wroteResult hw => rw [hi] at hw; cases hw
    | drove hw | rejected hw | fired hw => rw [hw] at hi; cases hi
    | _ => rfl
  · rfl
  · cases he with
    | none => rfl
    | timed hw | toggled hw => rw [hi] at hw; cases hw

/-- Requests are only added, and only by the instructions that send (R47, R95, R141, R144). -/
theorem exec_sends {i : Instr} {s t : State} (h : exec i s = .next t) :
    ∃ out, t.gpioOut = s.gpioOut ++ out ∧ (sends i = false → out = []) := by
  have silent : s.gpioOut = s.gpioOut ++ [] := (List.append_nil _).symm
  rcases exec_effect h with ⟨-, he⟩ | ⟨-, b, rfl⟩ | ⟨-, he⟩
  · cases he with
    | drove hi _ _ r => exact ⟨[r], rfl, fun hs => by rw [hi] at hs; cases hs⟩
    | fired hi _ out => exact ⟨out, rfl, fun hs => by rw [hi] at hs; cases hs⟩
    | _ => exact ⟨[], silent, fun _ => rfl⟩
  · exact ⟨[], silent, fun _ => rfl⟩
  · cases he with
    | none | timed => exact ⟨[], silent, fun _ => rfl⟩
    | toggled _ hg r => exact ⟨[r], rfl, fun hs => by rw [hs] at hg; cases hg⟩

/-- ERR is written by commands only (R29). -/
theorem exec_keeps_err {i : Instr} {s t : State} (h : exec i s = .next t) (hi : i.format ≠ .cmd32) : t.err = s.err := by
  rcases exec_effect h with ⟨hc, -⟩ | ⟨-, b, rfl⟩ | ⟨-, he⟩
  · exact absurd hc hi
  · rfl
  · cases he <;> rfl

/-- The samples are written by FIRE and the guards only (log entry 4). -/
theorem exec_keeps_engine {i : Instr} {s t : State} (h : exec i s = .next t) (hg : i.format ≠ .te16Guard)
    (hf : ∀ n, i ≠ .fire n) : t.engine = s.engine := by
  rcases exec_effect h with ⟨-, he⟩ | ⟨hguard, -⟩ | ⟨-, he⟩
  · cases he with
    | fired hi => exact absurd hi (hf _)
    | _ => rfl
  · exact absurd hguard hg
  · cases he <;> rfl

/-- An instruction writes at most one slot, and only one it may write (R37). -/
theorem exec_slots_cases {i : Instr} {s t : State} (h : exec i s = .next t) :
    t.slots = s.slots ∨ ∃ k y, mayWriteSlot i s k ∧ t.slots = s.slots.set k y := by
  rcases exec_effect h with ⟨-, he⟩ | ⟨-, b, rfl⟩ | ⟨ha, he⟩
  · rcases he.slots_cases with hsame | ⟨k, y, hk, -, hset⟩
    · exact .inl hsame
    · exact .inr ⟨k, y, hk, hset⟩
  · exact .inl rfl
  · cases he with
    | none => exact .inl rfl
    | timed _ x | toggled _ _ _ x => exact .inr ⟨s.engine.slot, x, .inr (.inr ⟨ha, rfl⟩), rfl⟩

end Sys2Proof.Machine

namespace Sys2Proof.Spec
open Sys2Proof.Machine

/-- Settles O55: one lemma per field, each from the effects an instruction can have. -/
theorem instructionFrames : Obligations.InstructionFrames := by
  unfold Obligations.InstructionFrames
  intro i s t h
  obtain ⟨htickEn, harg1, hreads, hpins, hinputs⟩ := exec_keeps_host h
  obtain ⟨out, hout, hsilent⟩ := exec_sends h
  refine ⟨htickEn, harg1, hreads, hpins, hinputs, exec_keeps_arg0 h, exec_keeps_tick h, exec_keeps_result h,
    exec_keeps_pending h, fun hi => ?_, exec_keeps_slots h, exec_keeps_err h, exec_keeps_engine h, out, hout⟩
  rw [hout, hsilent hi, List.append_nil]

/-- Settles O56: the one slot an instruction writes is one it may write. -/
theorem otherSlotsUntouched : Obligations.OtherSlotsUntouched := by
  unfold Obligations.OtherSlotsUntouched
  intro i s t k h hk
  rcases exec_slots_cases h with hsame | ⟨j, y, hj, hset⟩
  · exact State.slot_of_slots_eq hsame k
  · rw [State.slot_of_slots_set hset, if_neg (by rintro rfl; exact hk hj)]

end Sys2Proof.Spec
end

section
/-! What the next input does: the window's registers, a pin's level, a lost tick event, a stalled host's waiting
accesses (20_memory.md R60 to R62, 10_state.md R46, R48, R50). -/

namespace Sys2Proof.Machine
open Sys2Proof.Spec

/-! ### Taking the next input -/

/-- A host access that stands first is taken when no delay is pending. -/
theorem step_of_host {s : State} {a : Access} {rest : List Input} (hp : s.pending = .none)
    (h : s.inputs = .host a :: rest) : step s = hostAccess a { s with engine := Engine.idle, inputs := rest } :=
  runStep_of_some (State.takeInput_head hp h)

/-- An input that is no host access is taken from behind a stalled host's accesses too. -/
theorem step_of_comesNext {s : State} {i : Input} {before rest : List Input} (hi : i.isHost = false)
    (h : comesNext s i before rest) :
    step s = runInput i { s with engine := Engine.idle, inputs := before ++ rest } := by
  obtain ⟨hin, ⟨hp, rfl⟩ | ⟨hp, hbefore⟩⟩ := h
  · exact runStep_of_some (State.takeInput_head hp hin)
  · exact runStep_of_some (State.takeInput_stalled hp hin hbefore hi)

theorem State.tickEvent_of_disabled {s : State} (h : s.tickEn = false) : s.tickEvent = s := by
  simp [State.tickEvent, h]

/-- The level of every pin after a change of one (R46). -/
theorem State.gpioRead_setPin (s : State) (p q : PinId) (b : Bool) :
    (s.setPin p b).gpioRead q = if q = p then b else s.gpioRead q := by
  have hbit : (1#256 <<< p.toNat).getLsbD q.toNat = decide (q = p) := by
    have hp : p.toNat < 256 := p.isLt
    rw [← BitVec.twoPow_eq, BitVec.getLsbD_twoPow]
    simp [hp, ← BitVec.toNat_inj, eq_comm]
  have hq : q.toNat < 256 := q.isLt
  unfold State.gpioRead State.setPin
  cases b with
  | true => rw [if_pos rfl, BitVec.getLsbD_or, hbit]; by_cases hqp : q = p <;> simp [hqp]
  | false =>
    rw [if_neg (by decide), BitVec.getLsbD_and, BitVec.getLsbD_not, hbit]
    by_cases hqp : q = p <;> simp [hqp, hq]

/-! ### The window -/

theorem errNumber_eq (e : Err) : e.code.setWidth 32 = errNumber e := by cases e <;> rfl

/-- STATUS of a host that has a step: the number of ERR, with BUSY 0 (R28, R164). -/
theorem State.status_of_none {s : State} (h : s.pending = .none) : s.status = errNumber s.err := by
  rw [State.status_eq, if_pos h, errNumber_eq, BitVec.zero_add]

/-- The offsets of the window that hold a register (R60). -/
def registerOffsets : List Nat := [0x00, 0x04, 0x08, 0x0C, 0x10, 0x14, 0x18, 0x1C, 0x20]

theorem mem_registerOffsets {off : Nat} :
    off ∈ registerOffsets ↔ off = 0x00 ∨ off = 0x04 ∨ off = 0x08 ∨ off = 0x0C ∨ off = 0x10 ∨ off = 0x14 ∨
      off = 0x18 ∨ off = 0x1C ∨ off = 0x20 := by
  simp [registerOffsets]

theorem regAt_of_reserved {off : Nat} (h : off ∉ registerOffsets) : regAt off = .reserved := by
  simp only [mem_registerOffsets, not_or] at h
  simp [regAt, h]

/-- What every offset reads (R60, R61). -/
theorem State.memRead_eq {s : State} (h : s.pending = .none) (off : Nat) :
    s.memRead off =
      if off = 0x00 then 0x53444701#32
      else if off = 0x04 then (if s.tickEn then 1#32 else 0#32)
      else if off = 0x08 then errNumber s.err
      else if off = 0x0C then s.tick
      else if off = 0x10 then s.arg0
      else if off = 0x14 then s.arg1
      else if off = 0x18 then s.result
      else if off = 0x20 then 0x08201004#32
      else 0#32 := by
  rw [← State.status_of_none h, ← configValue_eq]
  by_cases hoff : off ∈ registerOffsets
  · rcases mem_registerOffsets.mp hoff with rfl | rfl | rfl | rfl | rfl | rfl | rfl | rfl | rfl <;> rfl
  · rw [State.memRead, regAt_of_reserved hoff]
    simp only [mem_registerOffsets, not_or] at hoff
    simp [hoff]

/-- What a write does at every offset but CMD's (R61, R62). -/
theorem State.memWrite_eq {off : Nat} (hcmd : off ≠ 0x1C) (v : Word) (s : State) :
    s.memWrite off v = .next (
      if off = 0x04 then { s with tickEn := v.getLsbD 0 }
      else if off = 0x10 then { s with arg0 := v }
      else if off = 0x14 then { s with arg1 := v }
      else s) := by
  by_cases hoff : off ∈ registerOffsets
  · simp only [mem_registerOffsets, hcmd, false_or] at hoff
    rcases hoff with rfl | rfl | rfl | rfl | rfl | rfl | rfl | rfl <;> rfl
  · rw [State.memWrite, regAt_of_reserved hoff]
    simp only [mem_registerOffsets, not_or] at hoff
    simp [hoff]

/-! ### A stalled host -/

/-- A step that takes no host access leaves the other inputs and reads nothing. -/
theorem runInput_keeps_host {i : Input} {s t : State} (hi : i.isHost = false) (h : runInput i s = .next t) :
    t.inputs = s.inputs ∧ t.reads = s.reads := by
  cases i with
  | host a => cases hi
  | tick =>
    cases h
    unfold State.tickEvent
    split
    · exact s.tickStep_frame.right.right
    · exact ⟨rfl, rfl⟩
  | pin p b => cases h; exact ⟨rfl, rfl⟩
  | reset => cases h; exact ⟨rfl, rfl⟩

theorem idleStep_keeps_host {s t : State} (h : idleStep s = .next t) : t.inputs = s.inputs ∧ t.reads = s.reads := by
  unfold idleStep at h
  split at h
  · cases h; exact s.tickStep_frame.right.right
  · split at h <;> cases h
    exact ⟨rfl, rfl⟩

/-- What a stalled machine takes is no host access, and leaves every host access in order (R50). -/
theorem State.takeInput_of_stalled {s : State} {i : Input} {rest : List Input} (hp : s.pending ≠ .none)
    (h : s.takeInput = some (i, rest)) :
    i.isHost = false ∧ rest.filter Input.isHost = s.inputs.filter Input.isHost := by
  rw [State.takeInput, State.busy_eq_true hp, if_pos rfl] at h
  exact firstNonHost_eq_some h

end Sys2Proof.Machine

namespace Sys2Proof.Spec
open Sys2Proof.Machine

/-- Settles O14: the levels after the change are those `State.setPin` holds. -/
theorem levelChanges : Obligations.LevelChanges := by
  unfold Obligations.LevelChanges
  intro s p b before rest h
  refine ⟨(s.setPin p b).pins, step_of_comesNext rfl h, fun q => s.gpioRead_setPin p q b⟩

/-- Settles O26: a stalled machine takes no host access, and nothing else reaches the accesses or the values read. -/
theorem stalledHostHasNoStep : Obligations.StalledHostHasNoStep := by
  unfold Obligations.StalledHostHasNoStep
  intro s t hp h
  cases htake : s.takeInput with
  | none =>
    obtain ⟨hinputs, hreads⟩ := idleStep_keeps_host ((runStep_of_none htake).symm.trans h)
    exact ⟨by rw [hinputs], hreads⟩
  | some taken =>
    obtain ⟨i, rest⟩ := taken
    obtain ⟨hi, hwait⟩ := State.takeInput_of_stalled hp htake
    obtain ⟨hinputs, hreads⟩ := runInput_keeps_host hi ((runStep_of_some htake).symm.trans h)
    exact ⟨by rw [hinputs]; exact hwait, hreads⟩

/-- Settles O8: the step is the read, and `State.memRead_eq` says what it returns. -/
theorem windowReads : Obligations.WindowReads := by
  unfold Obligations.WindowReads
  intro s off rest hp hmod hlt h
  rw [step_of_host hp h, hostAccess, if_pos (admitted_iff.mpr ⟨rfl, hmod, hlt⟩),
    State.memRead_eq (s := { s with engine := Engine.idle, inputs := rest }) hp]

/-- Settles O9: the step is the write, and `State.memWrite_eq` says what it does. -/
theorem windowWrites : Obligations.WindowWrites := by
  unfold Obligations.WindowWrites
  intro s off v rest hp hmod hlt hcmd h
  rw [step_of_host hp h, hostAccess, if_pos (admitted_iff.mpr ⟨rfl, hmod, hlt⟩), State.memWrite_eq hcmd]

/-- Settles O12: every slot is `Slot.free` and every register is at its value of R57. -/
theorem resetValues : Obligations.ResetValues := by
  unfold Obligations.ResetValues
  refine ⟨rfl, rfl, rfl, rfl, rfl, rfl, rfl, configValue_eq, rfl, rfl, fun k => ?_⟩
  rw [State.slot_reset]
  exact ⟨rfl, rfl, rfl, rfl, rfl, rfl, rfl, rfl, rfl, fun i => Vector.getElem_replicate _⟩

/-- Settles O19: with TICK_EN = 0 the tick event that is taken does nothing. -/
theorem tickEventLost : Obligations.TickEventLost := by
  unfold Obligations.TickEventLost
  intro s before rest ht h
  rw [step_of_comesNext rfl h]
  exact congrArg Host.Outcome.next (State.tickEvent_of_disabled ht)

end Sys2Proof.Spec
end

section
/-! What the window does not admit, the byte lanes of a register, and who writes TICK (20_memory.md R63, R64, R72,
44_timebase.md R148). -/

namespace Sys2Proof.Machine
open Sys2Proof.Spec

/-! ### Accesses the window does not admit -/

theorem not_admitted {off bytes : Nat} (h : bytes ≠ 4 ∨ off % 4 ≠ 0 ∨ 0x100 ≤ off) : ¬admitted off bytes = true := by
  rw [admitted_iff]
  omega

/-! ### Byte lanes -/

/-- The bits above a byte lane, put on top of it, are the bits from that lane up (R63). -/
theorem extractLsb'_append_byteLane (v : Word) (k n : Nat) :
    v.extractLsb' (8 * (k + 1)) n ++ byteLane v k = v.extractLsb' (8 * k) (n + 8) :=
  BitVec.extractLsb'_append_extractLsb'_eq_extractLsb' (Nat.mul_succ 8 k)

/-! ### Who writes TICK -/

theorem writesTick_iff {i : Instr} : writesTick i = true ↔ i = .tickset ∨ i = .tickstep := by
  cases i <;> simp [writesTick]

/-- While the tick agent runs, both test hooks are refused (R159, R160). -/
theorem exec_of_writesTick_of_enabled {i : Instr} {s : State} (hi : writesTick i = true) (hen : s.tickEn = true) :
    exec i s = .next (s.raise .tickRun) := by
  rcases writesTick_iff.mp hi with rfl | rfl
  · exact if_pos hen
  · exact if_pos hen

/-- No instruction writes TICK while the tick agent runs (R148). -/
theorem exec_keeps_tick_of_enabled {i : Instr} {s t : State} (h : exec i s = .next t) (hen : s.tickEn = true) :
    t.tick = s.tick := by
  cases hi : writesTick i with
  | false => exact exec_keeps_tick h hi
  | true =>
    rw [exec_of_writesTick_of_enabled hi hen] at h
    cases h
    exact s.raise_tick .tickRun

end Sys2Proof.Machine

namespace Sys2Proof.Spec
open Sys2Proof.Machine

/-- Settles O29: an instruction that changes TICK writes it, and finds the tick agent stopped. -/
theorem tickHasSingleWriter : Obligations.TickHasSingleWriter := by
  unfold Obligations.TickHasSingleWriter
  refine ⟨fun i s t h hne => ⟨?_, ?_⟩, fun s => State.tickEvent_of_disabled⟩
  · exact Bool.eq_false_of_not_eq_true fun hen => hne (exec_keeps_tick_of_enabled h hen)
  · exact writesTick_iff.mp (Bool.eq_true_of_not_eq_false fun hi => hne (exec_keeps_tick h hi))

/-- Settles O10: the access is taken first, and `hostAccess` answers with the fault. -/
theorem unadmittedAccessFaults : Obligations.UnadmittedAccessFaults := by
  unfold Obligations.UnadmittedAccessFaults
  intro s off bytes v rest hp hbad h
  have hno := not_admitted hbad
  rcases h with hread | hwrite
  · rw [step_of_host hp hread, hostAccess, if_neg hno]
  · rw [step_of_host hp hwrite, hostAccess, if_neg hno]

/-- Settles O11: the lanes are put together from the top, one lane lower each time. -/
theorem byteLanesLittleEndian : Obligations.ByteLanesLittleEndian := by
  unfold Obligations.ByteLanesLittleEndian
  intro v
  symm
  calc byteLane v 3 ++ byteLane v 2 ++ byteLane v 1 ++ byteLane v 0
      = v.extractLsb' (8 * 2) 16 ++ byteLane v 1 ++ byteLane v 0 := by
        rw [← extractLsb'_append_byteLane v 2 8]; rfl
    _ = v.extractLsb' (8 * 1) 24 ++ byteLane v 0 := by rw [← extractLsb'_append_byteLane v 1 16]
    _ = v.extractLsb' (8 * 0) 32 := extractLsb'_append_byteLane v 0 24
    _ = v := BitVec.extractLsb'_eq_self

end Sys2Proof.Spec
end

section
/-! Encoding and decoding are inverse, and which command words are illegal (30_encoding.md R79 to R89). -/

namespace Sys2Proof

/-! ### The fields of a word and of an entry as numbers -/

theorem byte_toNat_eq_zero_iff {b : Byte} : b.toNat = 0 ↔ b = 0#8 :=
  BitVec.toNat_inj (y := 0#8)

theorem cmdSlot_toNat (c : Word) : (cmdSlot c).toNat = c.toNat / 65536 % 256 := by
  simp [cmdSlot, BitVec.extractLsb'_toNat, Nat.shiftRight_eq_div_pow]

theorem cmdFld_toNat (c : Word) : (cmdFld c).toNat = c.toNat / 256 % 256 := by
  simp [cmdFld, BitVec.extractLsb'_toNat, Nat.shiftRight_eq_div_pow]

theorem cmdRsv_toNat (c : Word) : (cmdRsv c).toNat = c.toNat % 256 := by
  simp [cmdRsv, BitVec.extractLsb'_toNat]

/-- Putting a nibble below `x` is one step of base 16. -/
theorem toNat_append_nibble {n : Nat} (x : BitVec n) (y : Nibble) : (x ++ y).toNat = x.toNat * 16 + y.toNat := by
  rw [BitVec.toNat_append, ← Nat.shiftLeft_add_eq_or_of_lt y.isLt, Nat.shiftLeft_eq]

theorem entryWord_toNat (src tgt g a : Nibble) :
    (entryWord src tgt g a).toNat = src.toNat * 4096 + tgt.toNat * 256 + g.toNat * 16 + a.toNat := by
  simp only [entryWord, toNat_append_nibble]
  omega

/-! ### The fields of an entry built from them -/

@[simp] theorem entrySrc_entryWord (src tgt g a : Nibble) : entrySrc (entryWord src tgt g a) = src := by
  rw [entrySrc, entryWord, BitVec.extractLsb'_append_eq_of_le (by decide),
    BitVec.extractLsb'_append_eq_of_le (by decide)]
  exact BitVec.extractLsb'_append_eq_left

@[simp] theorem entryTgt_entryWord (src tgt g a : Nibble) : entryTgt (entryWord src tgt g a) = tgt := by
  rw [entryTgt, entryWord, BitVec.extractLsb'_append_eq_of_le (by decide),
    BitVec.extractLsb'_append_eq_of_le (by decide)]
  exact BitVec.extractLsb'_append_eq_right

@[simp] theorem entryGuard_entryWord (src tgt g a : Nibble) : entryGuard (entryWord src tgt g a) = g := by
  rw [entryGuard, entryWord, BitVec.extractLsb'_append_eq_of_le (by decide)]
  exact BitVec.extractLsb'_append_eq_right

@[simp] theorem entryAction_entryWord (src tgt g a : Nibble) : entryAction (entryWord src tgt g a) = a :=
  BitVec.extractLsb'_append_eq_right

/-! ### The rows of the opcode table -/

/-- The fields OP, SLOT and FLD of a legal command word for `i`: the row of the opcode table (R81), with the fields
it does not use 0 (R82). -/
structure IsCommand (op slot fld : Nat) (i : Instr) : Prop where
  row : commandOf op slot fld = some i
  slot_zero : usesSlot op = true ∨ slot = 0
  fld_zero : usesFld op = true ∨ fld = 0

/-- The check of SLOT, or of FLD, as decoding makes it. -/
theorem uses_or_zero_iff {used : Bool} {b : Byte} : ¬(used = false ∧ b ≠ 0) ↔ used = true ∨ b.toNat = 0 := by
  cases used <;> simp [byte_toNat_eq_zero_iff]

/-- What decoding a command word checks (R82). -/
theorem decodeCommand_eq_instr_iff {c : Word} {i : Instr} :
    decodeCommand c = .instr i ↔
      cmdRsv c = 0#8 ∧ IsCommand (cmdOp c).toNat (cmdSlot c).toNat (cmdFld c).toNat i := by
  constructor
  · intro h
    unfold decodeCommand at h
    split at h
    next => cases h
    next j hrow =>
      split_ifs at h with hrsv hslot hfld
      cases h
      exact ⟨not_not.mp hrsv, hrow, uses_or_zero_iff.mp hslot, uses_or_zero_iff.mp hfld⟩
  · rintro ⟨hrsv, hrow, hslot, hfld⟩
    simp only [decodeCommand, hrow]
    rw [if_neg (fun h => h hrsv), if_neg (uses_or_zero_iff.mpr hslot), if_neg (uses_or_zero_iff.mpr hfld)]

/-- The opcode table gives an instruction the word with its opcode and the fields it uses. -/
theorem encode_of_commandOf {op slot fld : Nat} {i : Instr} (h : commandOf op slot fld = some i) :
    encode i = commandWord (BitVec.ofNat 8 op) (if usesSlot op then slot else 0) (if usesFld op then fld else 0) := by
  unfold commandOf at h
  split at h <;> cases h <;> rfl

/-- Fields of 8 bits make a well-formed command. -/
theorem wellFormed_of_commandOf {op slot fld : Nat} {i : Instr} (h : commandOf op slot fld = some i)
    (hslot : slot < 256) (hfld : fld < 256) : i.wellFormed = true := by
  unfold commandOf at h
  split at h <;> cases h <;> simp [Instr.wellFormed, slotFits, fldFits, hslot, hfld]

/-- The opcodes without a row (R83). -/
theorem commandOf_eq_none_iff {op slot fld : Nat} :
    commandOf op slot fld = none ↔
      (0x06 ≤ op ∧ op ≤ 0x0F) ∨ (0x17 ≤ op ∧ op ≤ 0x1F) ∨ (0x24 ≤ op ∧ op ≤ 0x2F) ∨ 0x33 ≤ op := by
  unfold commandOf
  split
  case h_21 =>
    simp only [true_iff]
    grind
  all_goals simp

theorem IsCommand.encode_eq {op slot fld : Nat} {i : Instr} (h : IsCommand op slot fld i) :
    encode i = commandWord (BitVec.ofNat 8 op) slot fld := by
  obtain ⟨hrow, hslot, hfld⟩ := h
  have hs : (if usesSlot op then slot else 0) = slot := by grind
  have hf : (if usesFld op then fld else 0) = fld := by grind
  rw [encode_of_commandOf hrow, hs, hf]

/-- A word put together from the fields of a command decodes to it. -/
theorem decodeCommand_commandWord {op : Byte} {slot fld : Nat} {i : Instr} (hslot : slot < 256) (hfld : fld < 256)
    (h : IsCommand op.toNat slot fld i) : decodeCommand (commandWord op slot fld) = .instr i := by
  rw [decodeCommand_eq_instr_iff]
  simpa [Nat.mod_eq_of_lt, hslot, hfld] using h

/-- A word that decodes to a command is that command's encoding. -/
theorem encode_of_decodeCommand {c : Word} {i : Instr} (h : decodeCommand c = .instr i) :
    i.wellFormed = true ∧ i.format = .cmd32 ∧ encode i = c := by
  obtain ⟨hrsv, hcmd⟩ := decodeCommand_eq_instr_iff.mp h
  refine ⟨wellFormed_of_commandOf hcmd.row (cmdSlot c).isLt (cmdFld c).isLt, decodeCommand_format h, ?_⟩
  rw [hcmd.encode_eq, BitVec.ofNat_toNat, BitVec.setWidth_eq, commandWord_fields c hrsv]

/-! ### Table entries -/

/-- An entry operand is read for its guard as the entry it carries (R84). -/
@[simp] theorem decode_te16Guard_entryOperand (src tgt g a : Nibble) :
    decode .te16Guard (entryOperand src tgt g a) = decodeGuard (entryWord src tgt g a) := by
  simp [decode]

@[simp] theorem decode_te16Action_entryOperand (src tgt g a : Nibble) :
    decode .te16Action (entryOperand src tgt g a) = decodeAction (entryWord src tgt g a) := by
  simp [decode]

/-- A word that is read as an entry and is not too wide for one is its own lower half (R84). -/
theorem instr_of_not_entryTooWide {w : Word} {d : Decoded} {i : Instr}
    (h : (if w >>> 16 = 0 then d else .illegal .entryTooWide) = .instr i) :
    d = .instr i ∧ (w.setWidth 16).setWidth 32 = w := by
  split_ifs at h with hhigh
  exact ⟨h, setWidth_of_high_zero hhigh⟩

/-- A guard row is put back together from an entry with its guard code. -/
theorem entryOperand_of_guard {e : Entry} {n : Nat} (h : (entryGuard e).toNat = n) :
    entryOperand (entrySrc e) (entryTgt e) (BitVec.ofNat 4 n) (entryAction e) = e.setWidth 32 := by
  subst h
  simp [entryOperand, entryWord_fields]

/-- An action row is put back together from an entry with its action code. -/
theorem entryOperand_of_action {e : Entry} {n : Nat} (h : (entryAction e).toNat = n) :
    entryOperand (entrySrc e) (entryTgt e) (entryGuard e) (BitVec.ofNat 4 n) = e.setWidth 32 := by
  subst h
  simp [entryOperand, entryWord_fields]

/-- An entry read as a guard row is that row's encoding (R86, R87). -/
theorem encode_of_decodeGuard {e : Entry} {i : Instr} (h : decodeGuard e = .instr i) :
    i.wellFormed = true ∧ i.format = .te16Guard ∧ encode i = e.setWidth 32 := by
  unfold decodeGuard at h
  split at h <;> cases h
  all_goals
    rename_i hg
    exact ⟨rfl, rfl, entryOperand_of_guard hg⟩

/-- An entry read as an action row is that row's encoding (R86, R88). -/
theorem encode_of_decodeAction {e : Entry} {i : Instr} (h : decodeAction e = .instr i) :
    i.wellFormed = true ∧ i.format = .te16Action ∧ encode i = e.setWidth 32 := by
  unfold decodeAction at h
  split at h <;> cases h
  all_goals
    rename_i ha
    exact ⟨rfl, rfl, entryOperand_of_action ha⟩

/-! ### Illegal words -/

theorem Decoded.exists_illegal_iff {d : Decoded} : (∃ why, d = .illegal why) ↔ ¬∃ i, d = .instr i := by
  cases d <;> simp

theorem usesSlot_iff {op : Nat} :
    usesSlot op = true ↔ op ∈ [0x11, 0x12, 0x13, 0x16, 0x20, 0x21, 0x22, 0x23, 0x30, 0x31, 0x32] :=
  List.contains_iff_mem

theorem usesFld_iff {op : Nat} : usesFld op = true ↔ op ∈ [0x12, 0x22, 0x23] :=
  List.contains_iff_mem

/-- A command word is illegal when one of the four checks of R82 fails. -/
theorem decodeCommand_illegal_iff {c : Word} :
    (∃ why, decodeCommand c = .illegal why) ↔
      commandOf (cmdOp c).toNat (cmdSlot c).toNat (cmdFld c).toNat = none ∨ (cmdRsv c).toNat ≠ 0 ∨
      (¬usesSlot (cmdOp c).toNat = true ∧ (cmdSlot c).toNat ≠ 0) ∨
      (¬usesFld (cmdOp c).toNat = true ∧ (cmdFld c).toNat ≠ 0) := by
  rw [Decoded.exists_illegal_iff, Option.eq_none_iff_forall_ne_some]
  simp only [decodeCommand_eq_instr_iff, ← byte_toNat_eq_zero_iff]
  constructor
  · intro h
    by_contra hall
    push Not at hall
    obtain ⟨⟨i, hrow⟩, hr, hslot, hfld⟩ := hall
    exact h ⟨i, hr, hrow, or_iff_not_imp_left.mpr hslot, or_iff_not_imp_left.mpr hfld⟩
  · rintro h ⟨i, hr, hrow, hslot, hfld⟩
    rcases h with hnone | hne | ⟨hno, hne⟩ | ⟨hno, hne⟩
    · exact hnone i hrow
    · exact hne hr
    · exact hne (hslot.resolve_left hno)
    · exact hne (hfld.resolve_left hno)

end Sys2Proof

namespace Sys2Proof.Spec

/-- Settles O2: a command's word has the fields of its row, by the number of operands it takes, and an entry has the
fields of the row it is built from. -/
theorem encodeThenDecode : Obligations.EncodeThenDecode := by
  unfold Obligations.EncodeThenDecode
  intro i hwf
  cases i with
  | nop | now | delay | delayUntil | tickset | tickstep | alloc | newButton | newBlink =>
    simp only [Instr.format, decode, encode]
    exact decodeCommand_commandWord (by decide) (by decide) ⟨rfl, .inr rfl, .inr rfl⟩
  | wrtab | commit | destroy | fire | rdstate | getDuration | resetDuration | checkActivity =>
    exact decodeCommand_commandWord (of_decide_eq_true hwf) (by decide) ⟨rfl, .inl rfl, .inr rfl⟩
  | wrfld | rdfld | rdtab =>
    obtain ⟨hslot, hfld⟩ := Bool.and_eq_true_iff.mp hwf
    exact decodeCommand_commandWord (of_decide_eq_true hslot) (of_decide_eq_true hfld) ⟨rfl, .inl rfl, .inl rfl⟩
  | gFalse | gTrue | gPinPressed | gPinReleased | gTimeout | gHalfPeriod =>
    simp [Instr.format, encode, decodeGuard]
  | aNone | aPressStart | aReleaseStart | aToggle =>
    simp [Instr.format, encode, decodeAction]

/-- Settles O3: one lemma per format for the rows, and a word read as an entry is its own lower half. -/
theorem decodeThenEncode : Obligations.DecodeThenEncode := by
  unfold Obligations.DecodeThenEncode
  intro f w i h
  cases f with
  | cmd32 => exact encode_of_decodeCommand h
  | te16Guard =>
    obtain ⟨hrow, hlow⟩ := instr_of_not_entryTooWide h
    exact hlow ▸ encode_of_decodeGuard hrow
  | te16Action =>
    obtain ⟨hrow, hlow⟩ := instr_of_not_entryTooWide h
    exact hlow ▸ encode_of_decodeAction hrow

/-- Settles O4: the checks of decoding, with the opcodes that have no row and the fields as numbers. -/
theorem illegalCommandWords : Obligations.IllegalCommandWords := by
  unfold Obligations.IllegalCommandWords
  intro c
  refine decodeCommand_illegal_iff.trans ?_
  simp only [commandOf_eq_none_iff, usesSlot_iff, usesFld_iff, cmdSlot_toNat, cmdFld_toNat, cmdRsv_toNat, or_assoc]

/-- Settles O1: each of the seven words is the encoding of its instruction. -/
theorem specWordsDecode : Obligations.SpecWordsDecode := by
  unfold Obligations.SpecWordsDecode
  exact ⟨encodeThenDecode .nop rfl, encodeThenDecode .delayUntil rfl, encodeThenDecode (.wrfld 3 4) rfl,
    encodeThenDecode (.fire 255) rfl, encodeThenDecode (.checkActivity 1) rfl,
    encodeThenDecode (.gPinReleased 2#4 3#4 2#4) rfl, encodeThenDecode (.aReleaseStart 2#4 3#4 3#4) rfl⟩

/-- Settles O5: each field is read where `entryWord` puts it, and each nibble is a digit in base 16. -/
theorem entryFields : Obligations.EntryFields := by
  unfold Obligations.EntryFields
  intro src tgt g a
  exact ⟨entrySrc_entryWord .., entryTgt_entryWord .., entryGuard_entryWord .., entryAction_entryWord ..,
    entryWord_toNat ..⟩

end Sys2Proof.Spec
end

section
/-! FIRE as the transition the rules give, and as the guard and action rows that it executes (41_engine.md R95 to R109). -/

namespace Sys2Proof.Machine
open Sys2Proof.Spec

/-! ### Guards -/

theorem nibble_eq_of_toNat {q : Nibble} {n : Nat} (h : q.toNat = n) : q = BitVec.ofNat 4 n := by
  rw [← h, BitVec.ofNat_toNat, BitVec.setWidth_eq]

theorem deadlineReached_eq (now deadline : Word) :
    deadlineReached now deadline = decide ((now - deadline).toNat < 2 ^ 31) := by
  rw [Bool.eq_iff_iff, deadlineReached_iff, decide_eq_true_iff]

/-- Half a period is rounded down (43_blink.md R143). -/
theorem elapsedAtLeast_halfOf (now start period : Word) :
    elapsedAtLeast now start (halfOf period) = decide (period.toNat / 2 ≤ (now - start).toNat) := by
  rw [elapsedAtLeast, halfOf, BitVec.toNat_ushiftRight, Nat.shiftRight_one]

/-- A reserved guard code is false (R95). -/
theorem guardHolds_of_reserved {g : Nibble} (hg : 5 < g.toNat) (x : Slot) (t : Word) (lvl : Bool) :
    guardHolds g x t lvl = false := by
  unfold guardHolds
  iterate 6 rw [if_neg (by rintro rfl; exact absurd hg (by decide))]

/-- The guard a code runs answers what the rules say of it, a reserved code false (R87, R105, R106). -/
theorem verdict_runGuard (g : Nibble) (s : State) :
    (runGuard g s).engine.verdict = guardHolds g s.fired s.engine.tick s.engine.level := by
  unfold runGuard
  split
  case h_1 hg | h_2 hg | h_3 hg | h_4 hg | h_5 hg =>
    rw [nibble_eq_of_toNat hg]
    rfl
  case h_6 hg =>
    rw [nibble_eq_of_toNat hg]
    exact elapsedAtLeast_halfOf ..
  case h_7 h0 h1 h2 h3 h4 h5 =>
    simp only [imp_false] at h0 h1 h2 h3 h4 h5
    exact (guardHolds_of_reserved (by omega) ..).symm

/-- A guard row, executed, is the guard of its entry (R87; log entry 5). -/
theorem exec_guardInstr {e : Entry} {g : Instr} (h : guardInstr e = some g) (s : State) :
    exec g s = .next (runGuard (entryGuard e) s) := by
  unfold guardInstr decodeGuard at h
  split at h <;> cases h
  case h_1 hg | h_2 hg | h_3 hg | h_4 hg | h_5 hg | h_6 hg =>
    rw [runGuard, hg]
    rfl

/-- An entry that is no guard row has a guard that is false (R95). -/
theorem verdict_of_guardInstr_eq_none {e : Entry} (h : guardInstr e = none) (s : State) :
    (runGuard (entryGuard e) s).engine.verdict = false := by
  unfold guardInstr decodeGuard at h
  split at h <;> cases h
  case h_7 h0 h1 h2 h3 h4 h5 =>
    simp only [imp_false] at h0 h1 h2 h3 h4 h5
    rw [verdict_runGuard]
    exact guardHolds_of_reserved (by omega) ..

/-! ### Actions -/

/-- The action a code runs writes the engine's slot and sends requests as the rules say (R88, R101). -/
theorem runAction_eq (a : Nibble) (s : State) :
    runAction a s = { s with
      slots := s.slots.set s.engine.slot (actOn a s.fired s.engine.tick), gpioOut := s.gpioOut ++ sent a s.fired } := by
  have same : s = { s with slots := s.slots.set s.engine.slot s.fired, gpioOut := s.gpioOut ++ [] } := by
    rw [State.fired, State.set_slot_self, List.append_nil]
  unfold runAction
  split
  case h_1 ha =>
    rw [nibble_eq_of_toNat ha]
    exact same
  case h_2 ha | h_3 ha =>
    rw [nibble_eq_of_toNat ha, show sent _ s.fired = [] from rfl, List.append_nil]
    rfl
  case h_4 ha =>
    rw [nibble_eq_of_toNat ha]
    rfl
  case h_5 h0 h1 h2 h3 =>
    simp only [imp_false] at h1 h2 h3
    have hact : actOn a s.fired s.engine.tick = s.fired := by simp [actOn, ← BitVec.toNat_inj, h1, h2, h3]
    have hsent : sent a s.fired = [] := by simp [sent, ← BitVec.toNat_inj, h3]
    rw [hact, hsent]
    exact same

/-- An action row, executed, is the action of its entry (R88; log entry 5). -/
theorem exec_actionInstr {e : Entry} {a : Instr} (h : actionInstr e = some a) (s : State) :
    exec a s = .next (runAction (entryAction e) s) := by
  unfold actionInstr decodeAction at h
  split at h <;> cases h
  case h_1 ha | h_2 ha | h_3 ha | h_4 ha =>
    rw [runAction, ha]
    rfl

/-! ### FIRE -/

theorem exec_fire_of_active {s : State} {k : Fin Config.nslot} (h : (s.slot k).sstat = .active) :
    exec (.fire k.val) s = .next (s.fireSlot k) := by
  have hslot : s.activeSlot k.val = .ok k := State.activeSlot_eq_ok.mpr ⟨rfl, h⟩
  simp [exec, execFire, hslot]

/-- One FIRE, as the rules give it: the scan accepts the entry that `accepted` finds, or none (R95). -/
theorem State.fireSlot_eq_firedSlot (s : State) (k : Fin Config.nslot) :
    s.fireSlot k = { s with
      slots := s.slots.set k (firedSlot (s.slot k) s.tick (s.gpioRead (s.slot k).pin)),
      gpioOut := s.gpioOut ++ firedRequests (s.slot k) s.tick (s.gpioRead (s.slot k).pin),
      err := .ok, engine := Engine.idle } := by
  have hverdict : ∀ e, (runGuard (entryGuard e) (s.beginFire k)).engine.verdict =
      guardHolds (entryGuard e) (s.slot k) s.tick (s.gpioRead (s.slot k).pin) := fun e => verdict_runGuard _ _
  rcases scanTable_cases (s.slot k).curState (s.slot k).entries (s.beginFire k) with
    ⟨hall, b, hscan⟩ | ⟨before, e, after, hes, hbefore, hsrc, hv, hscan⟩
  · have haccepted : accepted (s.slot k) s.tick (s.gpioRead (s.slot k).pin) = none := by
      simpa [accepted, hverdict] using hall
    rw [State.fireSlot, hscan, firedSlot, firedRequests, haccepted]
    simp only [State.set_slot_self, List.append_nil]
    rfl
  · have haccepted : accepted (s.slot k) s.tick (s.gpioRead (s.slot k).pin) = some e := by
      rw [accepted, List.find?_eq_some_iff_append]
      refine ⟨by simp [hsrc, ← hverdict, hv], before, after, hes, fun f hf => ?_⟩
      simpa [← hverdict, imp_iff_not_or] using hbefore f hf
    rw [State.fireSlot, hscan, runGuard_eq, runAction_eq, firedSlot, firedRequests, haccepted]
    simp [State.endFire, State.ok, State.setCurState, State.setFired, State.setSlot, State.fired, State.slot,
      State.beginFire, State.setVerdict]

end Sys2Proof.Machine

namespace Sys2Proof.Spec
open Sys2Proof.Machine

/-- Settles O31: FIRE of an ACTIVE slot is `State.fireSlot`, whose scan accepts what `accepted` finds. -/
theorem fireIsTransition : Obligations.FireIsTransition := by
  unfold Obligations.FireIsTransition
  intro s k ha
  rw [exec_fire_of_active ha, State.fireSlot_eq_firedSlot]

/-- Settles O32: with no guard that holds no entry is accepted, so the slot is written back and nothing is sent. -/
theorem fireIdleIsNoOp : Obligations.FireIdleIsNoOp := by
  unfold Obligations.FireIdleIsNoOp
  intro s k ha hidle hno
  have haccepted : accepted (s.slot k) s.tick (s.gpioRead (s.slot k).pin) = none := by
    simpa [accepted] using hno
  rw [fireIsTransition s k ha, firedSlot, firedRequests, haccepted]
  simp only [State.set_slot_self, List.append_nil, ← hidle]

/-- Settles O34: the earlier entries are passed over, and the rows of `e` are the guard and the action of the scan. -/
theorem fireRunsItsEntries : Obligations.FireRunsItsEntries := by
  unfold Obligations.FireRunsItsEntries
  intro s k before after e g a u v hactive hes hbefore hsrc hg ha hu hverdict hv
  rw [exec_guardInstr hg] at hu
  cases hu
  rw [exec_actionInstr ha] at hv
  cases hv
  have hskip : ∀ f ∈ before, entrySrc f = (s.slot k).curState →
      (runGuard (entryGuard f) (s.beginFire k)).engine.verdict = false := by
    intro f hf hfsrc
    cases hrow : guardInstr f with
    | none => exact verdict_of_guardInstr_eq_none hrow _
    | some gf => exact hbefore f hf hfsrc gf _ hrow (exec_guardInstr hrow _)
  obtain ⟨b, hscan⟩ := scanTable_skip hskip (e :: after)
  rw [exec_fire_of_active hactive, State.fireSlot, hes, hscan, scanTable_accept hsrc hverdict, runGuard_eq,
    runAction_eq]
  rfl

/-- Settles O35: each guard writes the verdict of its row, with the comparisons in numbers. -/
theorem guardResults : Obligations.GuardResults := by
  unfold Obligations.GuardResults
  intro s src tgt a
  refine ⟨rfl, rfl, rfl, rfl, ?_, ?_⟩
  · rw [← deadlineReached_eq]
    rfl
  · rw [← elapsedAtLeast_halfOf]
    rfl

/-- Settles O36: an action row runs its action on the engine's slot. -/
theorem actionResults : Obligations.ActionResults := by
  unfold Obligations.ActionResults
  rintro s src tgt g x rfl
  exact ⟨rfl, rfl, rfl, rfl⟩

end Sys2Proof.Spec
end

section
/-! What issuing a word, registering a table, destroying a slot and the debug reads answer (41_engine.md R93, R96, R110 to
R120). -/

namespace Sys2Proof.Machine
open Sys2Proof.Spec

/-! ### Issuing a word -/

/-- A write to CMD issues the word (R93; 20_memory.md R62). -/
theorem hostAccess_cmd (c : Word) (s : State) : hostAccess (.write 0x1C 4 c) s = issue c s := by
  rw [hostAccess, if_pos (by decide)]
  rfl

/-! ### Slot operands

The checks of `State.liveSlot`, `State.configSlot` and `State.activeSlot` in the words of the statements. -/

theorem State.liveSlot_of_noLiveSlot {s : State} {n : Nat} (h : noLiveSlot s n) : s.liveSlot n = .error .badSlot :=
  State.liveSlot_eq_error.mpr ⟨rfl, h⟩

theorem State.liveSlot_of_named {s : State} {n : Nat} {k : Fin Config.nslot} (h : named s n k) : s.liveSlot n = .ok k :=
  State.liveSlot_eq_ok.mpr h

theorem State.activeSlot_of_noLiveSlot {s : State} {n : Nat} (h : noLiveSlot s n) :
    s.activeSlot n = .error .badSlot := by
  rw [State.activeSlot, State.liveSlot_of_noLiveSlot h]

theorem State.activeSlot_of_config {s : State} {n : Nat} {k : Fin Config.nslot} (h : named s n k)
    (hc : (s.slot k).sstat = .config) : s.activeSlot n = .error .state := by
  simp [State.activeSlot, State.liveSlot_of_named h, hc]

theorem State.configSlot_of_noLiveSlot {s : State} {n : Nat} (h : noLiveSlot s n) :
    s.configSlot n = .error .badSlot :=
  State.configSlot_eq_error.mpr (.inl ⟨rfl, h⟩)

theorem State.configSlot_of_active {s : State} {n : Nat} {k : Fin Config.nslot} (h : named s n k)
    (ha : (s.slot k).sstat = .active) : s.configSlot n = .error .state :=
  State.configSlot_eq_error.mpr (.inr ⟨rfl, k, h.left, ha⟩)

theorem State.configSlot_of_not_active {s : State} {n : Nat} {k : Fin Config.nslot} (h : named s n k)
    (ha : (s.slot k).sstat ≠ .active) : s.configSlot n = .ok k := by
  rw [State.configSlot, State.liveSlot_of_named h]
  exact if_neg ha

theorem slotInRange_of_ge {n : Nat} (h : 4 ≤ n) : slotInRange n = .error .badSlot :=
  slotInRange_eq_error.mpr ⟨h, rfl⟩

/-! ### Other operands, fields and entries -/

theorem fitsIn_eq_false_iff {n : Nat} {v : Word} : fitsIn n v = false ↔ 2 ^ n ≤ v.toNat := by
  rw [← Bool.not_eq_true, fitsIn_iff, Nat.not_lt]

theorem nent_full_iff {n : BitVec 5} : n.toNat = Config.maxEntries ↔ n = 16#5 := BitVec.toNat_inj (y := 16#5)

/-- An entry below index 16 is what the table memory holds there (R120). -/
theorem Slot.entry_eq_getElem (x : Slot) {i : Nat} (h : i < 16) : x.entry i = x.table[i] := by
  simp [Slot.entry, h]

theorem Kind.code_eq_number (k : Kind) : k.code.setWidth 32 = kindNumber k := by
  cases k <;> rfl

theorem SlotStatus.code_eq_number (x : SlotStatus) : x.code.setWidth 32 = sstatNumber x := by
  cases x <;> rfl

/-- What RDFLD reads by the field index (R90). -/
theorem Slot.field_eq {f : Nat} (h : f ≤ 8) (x : Slot) :
    x.field f =
      if f = 0 then x.param
      else if f = 1 then x.t0
      else if f = 2 then x.nextTimeout
      else if f = 3 then x.duration
      else if f = 4 then x.pin.setWidth 32
      else if f = 5 then kindNumber x.kind
      else if f = 6 then x.curState.setWidth 32
      else if f = 7 then x.nent.setWidth 32
      else sstatNumber x.sstat := by
  rw [← Kind.code_eq_number, ← SlotStatus.code_eq_number]
  interval_cases f <;> rfl

/-- What WRFLD writes by the field index (R112). -/
theorem Slot.setField_eq {f : Nat} (h : f ≤ 4) (v : Word) (x : Slot) :
    x.setField f v =
      if f = 0 then { x with param := v }
      else if f = 1 then { x with t0 := v }
      else if f = 2 then { x with nextTimeout := v }
      else if f = 3 then { x with duration := v }
      else { x with pin := v.setWidth 8 } := by
  interval_cases f <;> rfl

end Sys2Proof.Machine

namespace Sys2Proof.Spec
open Sys2Proof.Machine

/-- Settles O6: the write to CMD is taken, and its word is issued. -/
theorem stepRunsIssuedCommand : Obligations.StepRunsIssuedCommand := by
  unfold Obligations.StepRunsIssuedCommand
  intro s c i rest hp hin hdecode
  rw [step_of_host hp hin, hostAccess_cmd, issue, hdecode]

/-- Settles O7: the write to CMD is taken, and its word is refused. -/
theorem illegalWordRefused : Obligations.IllegalWordRefused := by
  unfold Obligations.IllegalWordRefused
  intro s c why rest hp hin hdecode
  rw [step_of_host hp hin, hostAccess_cmd, issue, hdecode]
  rfl

/-- Settles O30: the slot check of FIRE fails, and its error is raised. -/
theorem fireRefused : Obligations.FireRefused := by
  unfold Obligations.FireRefused
  refine fun s n => ⟨fun hno => ?_, fun k hk hc => ?_⟩
  · rw [exec, execFire, State.activeSlot_of_noLiveSlot hno]
    rfl
  · rw [exec, execFire, State.activeSlot_of_config hk hc]
    rfl

/-- Settles O37: the search for a FREE slot finds the least one, or none. -/
theorem allocTakesLeastFree : Obligations.AllocTakesLeastFree := by
  unfold Obligations.AllocTakesLeastFree
  refine fun s => ⟨fun k hk => ?_, fun hno => ?_⟩
  · rw [exec, execAlloc, State.firstFree_eq_some.mpr hk]
    rfl
  · rw [exec, execAlloc, State.firstFree_eq_none.mpr hno]
    rfl

/-- Settles O38: after the slot check, the checks of the operand and of NENT in their order. -/
theorem wrtabResult : Obligations.WrtabResult := by
  unfold Obligations.WrtabResult
  refine fun s n => ⟨fun hno => ?_, fun k hk => ?_⟩
  · rw [exec, execWrtab, State.configSlot_of_noLiveSlot hno]
    rfl
  · by_cases ha : (s.slot k).sstat = .active
    · rw [exec, execWrtab, State.configSlot_of_active hk ha, if_pos ha]
      rfl
    · simp only [exec, execWrtab, State.configSlot_of_not_active hk ha, if_neg ha, fitsIn_eq_false_iff, nent_full_iff]
      split_ifs <;> rfl

/-- Settles O39: after the slot check, the checks of the field index and of the pin in their order. -/
theorem wrfldResult : Obligations.WrfldResult := by
  unfold Obligations.WrfldResult
  refine fun s n f => ⟨fun hno => ?_, fun k hk => ?_⟩
  · rw [exec, execWrfld, State.configSlot_of_noLiveSlot hno]
    rfl
  · by_cases ha : (s.slot k).sstat = .active
    · rw [exec, execWrfld, State.configSlot_of_active hk ha, if_pos ha]
      rfl
    · simp only [exec, execWrfld, State.configSlot_of_not_active hk ha, if_neg ha, fitsIn_eq_false_iff]
      by_cases hf : 4 < f
      · rw [if_pos hf, if_pos hf]
        rfl
      · rw [if_neg hf, if_neg hf, Slot.setField_eq (Nat.le_of_not_lt hf)]
        by_cases hpin : f = 4 ∧ 2 ^ 8 ≤ s.arg0.toNat
        · rw [if_pos hpin, if_pos hpin]
          rfl
        · rw [if_neg hpin, if_neg hpin]
          rfl

/-- Settles O42: DESTROY clears the slot that its check finds. -/
theorem destroyFreesSlot : Obligations.DestroyFreesSlot := by
  unfold Obligations.DestroyFreesSlot
  refine fun s n => ⟨fun hno => ?_, fun k hk => ?_⟩
  · rw [exec, execDestroy, State.liveSlot_of_noLiveSlot hno]
    rfl
  · rw [exec, execDestroy, State.liveSlot_of_named hk]
    rfl

/-- Settles O43: the slot is only checked to be in range, and RDTAB's index against NENT. -/
theorem debugReads : Obligations.DebugReads := by
  unfold Obligations.DebugReads
  refine fun s n i => ⟨fun hn => ⟨?_, ?_⟩, ?_⟩
  · rw [exec, execRdstate, slotInRange_of_ge hn]
    rfl
  · rw [exec, execRdtab, slotInRange_of_ge hn]
    rfl
  · rintro k rfl
    simp only [exec, execRdstate, execRdtab, slotInRange_val]
    refine ⟨rfl, fun hi h => ?_, fun hi => if_pos hi⟩
    rw [if_neg (Nat.not_le_of_lt hi), Slot.entry_eq_getElem _ h]
    rfl

/-- Settles O44: the slot is only checked to be in range, and then the field index is. -/
theorem rdfldResult : Obligations.RdfldResult := by
  unfold Obligations.RdfldResult
  refine fun s n f => ⟨fun hn => ?_, ?_⟩
  · rw [exec, execRdfld, slotInRange_of_ge hn]
    rfl
  · rintro k rfl
    simp only [exec, execRdfld, slotInRange_val]
    refine ⟨fun hf => if_pos hf, fun hf => ?_⟩
    rw [if_neg (Nat.not_lt_of_le hf), Slot.field_eq hf]
    rfl

end Sys2Proof.Spec
end

section
/-! What validating a table and COMMIT answer (41_engine.md R113 to R116). -/

namespace Sys2Proof.Machine
open Sys2Proof.Spec

/-! ### Validation -/

theorem isSource_iff_hasSource {es : List Entry} {q : Nibble} : isSource es q = true ↔ hasSource es q := by
  simp [isSource, hasSource]

theorem isSource_eq_false_iff {es : List Entry} {q : Nibble} : isSource es q = false ↔ ¬ hasSource es q := by
  rw [← isSource_iff_hasSource, Bool.not_eq_true]

theorem tableValid_iff {es : List Entry} :
    tableValid es = true ↔ es ≠ [] ∧
      ∀ e ∈ es, (entryGuard e).toNat ≤ 5 ∧ (entryAction e).toNat ≤ 3 ∧ hasSource es (entryTgt e) := by
  simp [tableValid, isSource_iff_hasSource, and_assoc]

/-- An entry fails for the first reason that applies: guard, action, target (R113). -/
theorem entryFailure_eq_some {es : List Entry} {e : Entry} {r : Reason} :
    entryFailure es e = some r ↔ entryFails es e r := by
  unfold entryFailure entryFails
  split_ifs with hg ha ht
  · simp [hg, Nat.not_le_of_lt hg, @eq_comm _ r]
  · simp [hg, ha, Nat.not_le_of_lt ha, Nat.le_of_not_lt hg, @eq_comm _ r]
  · simp [hg, ha, isSource_eq_false_iff.mp ht, Nat.le_of_not_lt hg, Nat.le_of_not_lt ha, @eq_comm _ r]
  · rw [isSource_eq_false_iff, not_not] at ht
    simp [hg, ha, ht]

theorem entryFailure_eq_none_iff_not_fails {es : List Entry} {e : Entry} :
    entryFailure es e = none ↔ ∀ r, ¬ entryFails es e r := by
  simp only [Option.eq_none_iff_forall_ne_some, ne_eq, entryFailure_eq_some]

/-- The first failing entry is the one with none before it, and it is answered with its index (R113). -/
theorem firstFailure_eq_some {all es : List Entry} {i j : Nat} {r : Reason} :
    firstFailure all i es = some (r, j) ↔
      ∃ before e after, es = before ++ e :: after ∧ j = i + before.length ∧ entryFailure all e = some r ∧
        ∀ b ∈ before, entryFailure all b = none := by
  induction es generalizing i with
  | nil => simp [firstFailure]
  | cons f fs ih =>
    unfold firstFailure
    constructor
    · intro h
      split at h
      case h_1 r' hr =>
        cases h
        exact ⟨[], f, fs, rfl, rfl, hr, by simp⟩
      case h_2 hr =>
        obtain ⟨before, e, after, rfl, rfl, he, hbefore⟩ := ih.mp h
        refine ⟨f :: before, e, after, rfl, by simp only [List.length_cons]; omega, he, ?_⟩
        exact List.forall_mem_cons.mpr ⟨hr, hbefore⟩
    · rintro ⟨before, e, after, hes, rfl, he, hbefore⟩
      cases before with
      | nil =>
        cases hes
        rw [he]
        rfl
      | cons b bs =>
        cases hes
        obtain ⟨hb, hbs⟩ := List.forall_mem_cons.mp hbefore
        rw [hb]
        exact ih.mpr ⟨bs, e, after, rfl, by simp only [List.length_cons]; omega, he, hbs⟩

/-- Everything validation can answer but OK (R113). -/
theorem validate_eq_some {es : List Entry} {q : Nibble} {r : Reason} {i : Nat} :
    validate es q = some (r, i) ↔
      (es = [] ∧ r = .empty ∧ i = 0) ∨ (es ≠ [] ∧ firstFailure es 0 es = some (r, i)) ∨
      (es ≠ [] ∧ firstFailure es 0 es = none ∧ ¬ hasSource es q ∧ r = .badInitial ∧ i = 0) := by
  unfold validate
  by_cases hes : es = []
  · simp [hes, eq_comm]
  · cases hf : firstFailure es 0 es with
    | some f => simp [hes]
    | none =>
      by_cases hq : hasSource es q
      · simp [hes, isSource_iff_hasSource, hq]
      · simp [hes, isSource_iff_hasSource, hq, @eq_comm _ Reason.badInitial r, @eq_comm _ 0 i]

/-! ### RESULT after a failed COMMIT -/

theorem Reason.code_toNat (r : Reason) : r.code.toNat = reasonNumber r := by
  cases r <;> rfl

/-- The reason stands below the index in RESULT (R116; 30_encoding.md R85). -/
theorem failureResult_eq (r : Reason) (i : Nat) : failureResult r i = BitVec.ofNat 32 (i * 256 + reasonNumber r) := by
  have hdisjoint : BitVec.ofNat 32 i <<< 8 &&& r.code.setWidth 32 = 0#32 := by
    apply BitVec.eq_of_getLsbD_eq
    intro j hj
    by_cases h8 : j < 8
    · simp [h8]
    · simp [BitVec.getLsbD_of_ge r.code j (Nat.le_of_not_lt h8)]
  have hcode : r.code.setWidth 32 = BitVec.ofNat 32 (reasonNumber r) := by
    rw [← r.code_toNat, BitVec.ofNat_toNat]
  rw [failureResult, ← BitVec.add_eq_or_of_and_eq_zero _ _ hdisjoint, hcode, BitVec.ofNat_add, BitVec.ofNat_mul]
  rw [BitVec.shiftLeft_eq_mul_twoPow]
  rfl

end Sys2Proof.Machine

namespace Sys2Proof.Spec
open Sys2Proof.Machine

/-- Settles O40: validation answers OK exactly for a valid table, and otherwise what the first failing entry or the initial
state gives. -/
theorem validateFindsFirstFailure : Obligations.ValidateFindsFirstFailure := by
  unfold Obligations.ValidateFindsFirstFailure
  refine fun es q => ⟨?_, fun r i => ?_⟩
  · rw [validate_eq_none, tableValid_iff, isSource_iff_hasSource, and_assoc]
  · rw [validate_eq_some]
    simp only [firstFailure_eq_none, firstFailure_eq_some, entryFailure_eq_some,
      entryFailure_eq_none_iff_not_fails, Nat.zero_add]
    refine or_congr_right (or_congr_left (and_iff_right_of_imp ?_))
    rintro ⟨before, e, after, rfl, -⟩
    simp

/-- Settles O41: after the slot check and the operand check, the slot becomes ACTIVE or is cleared as validation answers. -/
theorem commitResult : Obligations.CommitResult := by
  unfold Obligations.CommitResult
  refine fun s n => ⟨fun hno => ?_, fun k hk => ⟨fun ha => ?_, fun hc hwide => ?_, fun hc hfits => ?_⟩⟩
  · rw [exec, execCommit, State.configSlot_of_noLiveSlot hno]
    rfl
  · rw [exec, execCommit, State.configSlot_of_active hk ha]
    rfl
  all_goals
    have hslot : s.configSlot n = .ok k := State.configSlot_eq_ok.mpr ⟨hk.left, hc⟩
    simp only [exec, execCommit, hslot, stateOperand]
  · exact if_pos (fitsIn_eq_false_iff.mpr hwide)
  · rw [if_neg (by rw [fitsIn_eq_false_iff]; exact Nat.not_le_of_lt hfits)]
    refine ⟨fun hv => ?_, fun r i hv => ?_⟩
    · rw [hv]
      rfl
    · rw [hv, ← failureResult_eq]
      rfl

end Sys2Proof.Spec
end

section
/-! What an instruction, a read and a step depend on: the block's state and the level a FIRE samples (00_scope.md R23, R24,
41_engine.md R106). -/

namespace Sys2Proof.Machine
open Sys2Proof.Spec

/-! ### Answers that are alike -/

/-- Two answers, from `s` and from `u`, that go on, do the same to the block and send the same requests. -/
def AnswersAlike (s u : State) (x y : Host.Outcome State Fault Refusal) : Prop :=
  ∃ s' u' out, x = .next s' ∧ y = .next u' ∧
    s'.toBlock = u'.toBlock ∧ s'.gpioOut = s.gpioOut ++ out ∧ u'.gpioOut = u.gpioOut ++ out

/-- Answers that send nothing. -/
theorem AnswersAlike.silent {s u s' u' : State} (hblock : s'.toBlock = u'.toBlock := by rfl)
    (hs : s'.gpioOut = s.gpioOut := by rfl) (hu : u'.gpioOut = u.gpioOut := by rfl) :
    AnswersAlike s u (.next s') (.next u') :=
  ⟨s', u', [], rfl, rfl, hblock, by rw [hs, List.append_nil], by rw [hu, List.append_nil]⟩

/-- Answers chosen by the same check. -/
theorem AnswersAlike.ite {s u : State} {x x' y y' : Host.Outcome State Fault Refusal} {c : Prop} [Decidable c]
    (hpos : AnswersAlike s u x y) (hneg : AnswersAlike s u x' y') :
    AnswersAlike s u (if c then x else x') (if c then y else y') := by
  split_ifs
  · exact hpos
  · exact hneg

/-! ### What a command depends on -/

/-- The block beside nothing: what a check finds in the block beside anything, it finds here. -/
def Block.alone (b : Block) : State := ⟨b, Environment.initial, Engine.idle⟩

section
variable (b : Block) (e : Environment) (g : Engine)

theorem State.liveSlot_alone (n : Nat) : State.liveSlot ⟨b, e, g⟩ n = b.alone.liveSlot n := rfl
theorem State.configSlot_alone (n : Nat) : State.configSlot ⟨b, e, g⟩ n = b.alone.configSlot n := rfl
theorem State.activeSlot_alone (n : Nat) : State.activeSlot ⟨b, e, g⟩ n = b.alone.activeSlot n := rfl
theorem State.buttonSlot_alone (n : Nat) : State.buttonSlot ⟨b, e, g⟩ n = b.alone.buttonSlot n := rfl
theorem State.firstFree_alone : State.firstFree ⟨b, e, g⟩ = b.alone.firstFree := rfl
theorem State.slot_alone (k : Fin Config.nslot) : State.slot ⟨b, e, g⟩ k = b.alone.slot k := rfl

end

/-- Every command but FIRE depends on the block's state alone (R23). -/
theorem exec_answersAlike {i : Instr} (b : Block) (e e' : Environment) (g g' : Engine) (hf : i.format = .cmd32)
    (hfire : ∀ n, i ≠ .fire n) : AnswersAlike ⟨b, e, g⟩ ⟨b, e', g'⟩ (exec i ⟨b, e, g⟩) (exec i ⟨b, e', g'⟩) := by
  cases i with
  | nop | now => exact .silent
  | delay | delayUntil | tickset | tickstep => exact .ite .silent .silent
  | alloc | destroy | rdstate | getDuration | resetDuration | checkActivity =>
    simp only [exec, execAlloc, execDestroy, execRdstate, execGetDuration, execResetDuration, execCheckActivity,
      State.firstFree_alone, State.liveSlot_alone, State.buttonSlot_alone]
    split <;> exact .silent
  | newButton =>
    simp only [exec, execNewButton, State.firstFree_alone]
    exact .ite .silent (by split <;> exact .silent)
  | newBlink =>
    simp only [exec, execNewBlink, State.firstFree_alone]
    refine .ite .silent ?_
    split
    · exact .silent
    · exact ⟨_, _, [_], rfl, rfl, rfl, rfl, rfl⟩
  | wrtab | wrfld =>
    simp only [exec, execWrtab, execWrfld, State.configSlot_alone]
    split
    · exact .silent
    · exact .ite .silent (.ite .silent .silent)
  | commit =>
    simp only [exec, execCommit, State.configSlot_alone, State.slot_alone]
    split
    · exact .silent
    · exact .ite .silent (by split <;> exact .silent)
  | rdfld | rdtab =>
    simp only [exec, execRdfld, execRdtab]
    split
    · exact .silent
    · exact .ite .silent .silent
  | fire n => exact absurd rfl (hfire n)
  | gFalse | gTrue | gPinPressed | gPinReleased | gTimeout | gHalfPeriod => cases hf
  | aNone | aPressStart | aReleaseStart | aToggle => cases hf

/-- FIRE depends on the block's state and the level it samples alone (R106). -/
theorem exec_fire_answersAlike {n : Nat} (b : Block) (e e' : Environment) (g g' : Engine)
    (hlevel : ∀ k : Fin Config.nslot, n = k.val →
      State.gpioRead ⟨b, e, g⟩ (b.alone.slot k).pin = State.gpioRead ⟨b, e', g'⟩ (b.alone.slot k).pin) :
    AnswersAlike ⟨b, e, g⟩ ⟨b, e', g'⟩ (exec (.fire n) ⟨b, e, g⟩) (exec (.fire n) ⟨b, e', g'⟩) := by
  simp only [exec, execFire, State.activeSlot_alone]
  split
  case h_1 => exact .silent
  case h_2 k hk =>
    obtain ⟨hn, -⟩ := State.activeSlot_eq_ok.mp hk
    simp only [State.fireSlot_eq_firedSlot, State.slot_alone, hlevel k hn]
    exact ⟨_, _, _, rfl, rfl, rfl, rfl, rfl⟩

/-- A command depends on the block's state and, for FIRE, on the level it samples alone (R23, R24). -/
theorem exec_answersAlike_of_toBlock {i : Instr} {s u : State} (hf : i.format = .cmd32) (hblock : s.toBlock = u.toBlock)
    (hlevel : ∀ k : Fin Config.nslot, i = .fire k.val → s.gpioRead (s.slot k).pin = u.gpioRead (s.slot k).pin) :
    AnswersAlike s u (exec i s) (exec i u) := by
  obtain ⟨b, e, g⟩ := s
  obtain ⟨b', e', g'⟩ := u
  cases hblock
  by_cases hfire : ∃ n, i = .fire n
  · obtain ⟨n, rfl⟩ := hfire
    exact exec_fire_answersAlike b e e' g g' fun k hk => hlevel k (by rw [hk])
  · exact exec_answersAlike b e e' g g' hf fun n hn => hfire ⟨n, hn⟩

/-! ### What a step depends on -/

/-- Where the first step goes on, the second goes on with the same block. -/
def SameBlockNext (x y : Host.Outcome State Fault Refusal) : Prop :=
  ∀ t, x = .next t → ∃ t', y = .next t' ∧ t'.toBlock = t.toBlock

theorem SameBlockNext.next {t t' : State} (h : t'.toBlock = t.toBlock := by rfl) :
    SameBlockNext (.next t) (.next t') := by
  rintro _ ⟨⟩
  exact ⟨t', rfl, h⟩

theorem SameBlockNext.fault {r : Fault} {y : Host.Outcome State Fault Refusal} : SameBlockNext (.fault r) y := by
  rintro _ ⟨⟩

theorem SameBlockNext.ite {x x' y y' : Host.Outcome State Fault Refusal} {c : Prop} [Decidable c]
    (hpos : SameBlockNext x y) (hneg : SameBlockNext x' y') :
    SameBlockNext (if c then x else x') (if c then y else y') := by
  split_ifs
  · exact hpos
  · exact hneg

theorem AnswersAlike.sameBlockNext {s u : State} {x y : Host.Outcome State Fault Refusal} (h : AnswersAlike s u x y) :
    SameBlockNext x y := by
  obtain ⟨s', u', out, rfl, rfl, hblock, -, -⟩ := h
  exact .next hblock.symm

section
variable {s u : State} (hblock : s.toBlock = u.toBlock)
include hblock

theorem State.tickStep_toBlock_congr : s.tickStep.toBlock = u.tickStep.toBlock := by
  obtain ⟨b, e, g⟩ := s
  obtain ⟨b', e', g'⟩ := u
  cases hblock
  simp only [State.tickStep, State.completePending]
  split
  · rfl
  · split_ifs <;> rfl
  · split_ifs <;> rfl

theorem idleStep_sameBlockNext : SameBlockNext (idleStep s) (idleStep u) := by
  have htick := State.tickStep_toBlock_congr hblock
  obtain ⟨b, e, g⟩ := s
  obtain ⟨b', e', g'⟩ := u
  cases hblock
  exact .ite (.next htick.symm) (.ite .fault .next)

variable (hpins : s.pins = u.pins)
include hpins

/-- A word issued does the same to blocks that see the same levels (R23). -/
theorem issue_sameBlockNext (c : Word) : SameBlockNext (issue c s) (issue c u) := by
  unfold issue
  split
  case h_1 => exact .next (congrArg (fun b : Block => { b with err := .illegal }) hblock.symm)
  case h_2 i hdecode =>
    have hlevel : ∀ p, s.gpioRead p = u.gpioRead p := fun p => by simp only [State.gpioRead, hpins]
    exact (exec_answersAlike_of_toBlock (decodeCommand_format hdecode) hblock fun k _ => hlevel _).sameBlockNext

theorem runInput_sameBlockNext (i : Input) : SameBlockNext (runInput i s) (runInput i u) := by
  have htick := State.tickStep_toBlock_congr hblock
  have hissue := issue_sameBlockNext hblock hpins
  obtain ⟨b, e, g⟩ := s
  obtain ⟨b', e', g'⟩ := u
  cases hblock
  rcases i with (⟨off, bytes⟩ | ⟨off, bytes, v⟩) | _ | ⟨p, l⟩ | _
  · exact .ite .next .fault
  · refine .ite ?_ .fault
    unfold State.memWrite
    split
    case h_4 => exact hissue v
    all_goals exact .next
  · refine .next ?_
    simp only [State.tickEvent]
    split_ifs
    · exact htick.symm
    · rfl
  · exact .next
  · exact .next

end

/-- What the host has read and the block has sent does not matter to a step (R24; log entry 21). -/
theorem step_sameBlockNext (s : State) (out : List GpioRequest) (seen : List Word) :
    SameBlockNext (step s) (step { s with gpioOut := out, reads := seen }) := by
  have htake : State.takeInput { s with gpioOut := out, reads := seen } = s.takeInput := rfl
  simp only [step, runStep, htake]
  split
  · apply runInput_sameBlockNext <;> rfl
  · exact idleStep_sameBlockNext rfl

end Sys2Proof.Machine

namespace Sys2Proof.Spec
open Sys2Proof.Machine

/-- Settles O33: FIRE is the transition of O31, whose slot and requests are functions of the slot and the samples; a command's
checks and effects are those of the block beside anything else; and no step reads the record of what was read and sent. -/
theorem outcomesDependOnBlockState : Obligations.OutcomesDependOnBlockState := by
  unfold Obligations.OutcomesDependOnBlockState
  refine ⟨?_, fun i s u hf hblock hlevel => exec_answersAlike_of_toBlock hf hblock hlevel, ?_, fun s g => rfl,
    fun s t h => (step_slot_cases h).left, fun s t out seen h => step_sameBlockNext s out seen t h⟩
  · intro s u k ha hslot htick hlevel
    have hfired : firedSlot (s.slot k) s.tick (s.gpioRead (s.slot k).pin) =
        firedSlot (u.slot k) u.tick (u.gpioRead (u.slot k).pin) := by rw [hlevel, htick, hslot]
    refine ⟨_, _, _, fireIsTransition s k ha, fireIsTransition u k (hslot ▸ ha), ?_, rfl, rfl, ?_⟩
    · exact (s.slot_setSlot_self k _).trans (hfired.trans (u.slot_setSlot_self k _).symm)
    · rw [hlevel, htick, hslot]
  · rintro ⟨b, e, g⟩ ⟨b', e', g'⟩ off hblock
    cases hblock
    rfl

end Sys2Proof.Spec
end

section
/-! The button: what NEW_BUTTON and the accessors answer (42_button.md R126, R134 to R137). -/

namespace Sys2Proof.Machine
open Sys2Proof.Spec

/-! ### Operands -/

theorem State.buttonSlot_of_noLiveSlot {s : State} {n : Nat} (h : noLiveSlot s n) :
    s.buttonSlot n = .error .badSlot := by
  rw [State.buttonSlot, State.liveSlot_of_noLiveSlot h]

theorem State.buttonSlot_of_button {s : State} {n : Nat} {k : Fin Config.nslot} (h : named s n k)
    (hkind : (s.slot k).kind = .button) : s.buttonSlot n = .ok k := by
  rw [State.buttonSlot, State.liveSlot_of_named h]
  exact if_pos hkind

theorem State.buttonSlot_of_other {s : State} {n : Nat} {k : Fin Config.nslot} (h : named s n k)
    (hkind : (s.slot k).kind ≠ .button) : s.buttonSlot n = .error .kind := by
  rw [State.buttonSlot, State.liveSlot_of_named h]
  exact if_neg hkind

theorem boolResult_decide (p : Prop) [Decidable p] : boolResult (decide p) = if p then 1#32 else 0#32 := by
  simp [boolResult]

theorem toNat_pinOperand {v : Word} (h : v.toNat < 2 ^ 8) : (pinOperand v).toNat = v.toNat := by
  rw [pinOperand, BitVec.toNat_setWidth, Nat.mod_eq_of_lt h]

/-- A value that an argument register holds is read back at its own width (R84). -/
theorem setWidth_of_register {n : Nat} (hn : n ≤ 32) (v : BitVec n) : (v.setWidth 32).setWidth n = v := by
  rw [BitVec.setWidth_setWidth_of_le _ hn, BitVec.setWidth_eq]

theorem toNat_register_lt {n : Nat} (hn : n ≤ 32) (v : BitVec n) : (v.setWidth 32).toNat < 2 ^ n := by
  rw [BitVec.toNat_setWidth_of_le hn]
  exact v.isLt

theorem pinOperand_setWidth (pin : PinId) : pinOperand (pin.setWidth 32) = pin :=
  setWidth_of_register (by decide) pin

/-! ### NEW_BUTTON -/

/-- NEW_BUTTON with a pin id that fits takes the least FREE slot (R126). -/
theorem exec_newButton_of_leastFree {s : State} {k : Fin Config.nslot} (hfits : s.arg1.toNat < 2 ^ 8)
    (hk : leastFree s k) :
    exec .newButton s =
      .next ((s.setSlot k (buttonSlotOf s.arg0 (pinOperand s.arg1))).setResult (slotResult k)).ok := by
  simp only [exec, execNewButton, fitsIn_eq_false_iff, Nat.not_le_of_lt hfits, if_false,
    State.firstFree_eq_some.mpr hk]

end Sys2Proof.Machine

namespace Sys2Proof.Spec
open Sys2Proof.Machine

/-- Settles O45: the checks of the pin id and of a FREE slot in their order, then the slot is `buttonSlotOf`. -/
theorem newButtonResult : Obligations.NewButtonResult := by
  unfold Obligations.NewButtonResult
  refine fun s => ⟨fun hwide => ?_, fun hfits hno => ?_, fun k hfits hk => ?_⟩
  · rw [exec, execNewButton]
    exact if_pos (fitsIn_eq_false_iff.mpr hwide)
  · simp only [exec, execNewButton, fitsIn_eq_false_iff, Nat.not_le_of_lt hfits, if_false,
      State.firstFree_eq_none.mpr hno]
    rfl
  · exact ⟨_, exec_newButton_of_leastFree hfits hk, rfl, rfl, rfl, rfl, toNat_pinOperand hfits, rfl, rfl, rfl, rfl,
      rfl⟩

/-- Settles O47: the slot check of `State.buttonSlot` decides between the two errors and the accessor's own result. -/
theorem buttonAccessors : Obligations.ButtonAccessors := by
  unfold Obligations.ButtonAccessors
  refine fun s n => ⟨fun hno => ?_, fun k hk => ⟨fun hkind => ?_, fun hkind => ?_⟩⟩
  all_goals simp only [exec, execGetDuration, execResetDuration, execCheckActivity]
  · rw [State.buttonSlot_of_noLiveSlot hno]
    exact ⟨rfl, rfl, rfl⟩
  · rw [State.buttonSlot_of_other hk hkind]
    exact ⟨rfl, rfl, rfl⟩
  · rw [State.buttonSlot_of_button hk hkind]
    exact ⟨rfl, rfl, by simp only [boolResult_decide]; rfl⟩

end Sys2Proof.Spec
end

section
/-! The commands that build a slot from ALLOC to COMMIT, and that the button's preset is built by them (42_button.md
R127). -/

namespace Sys2Proof.Machine
open Sys2Proof.Spec

/-- Issued one after the other where slot `k` holds `x`, the commands all answer, and of the slots write that one alone,
to `y`. -/
def Builds (k : Fin Config.nslot) (cs : List (Word × Instr)) (x y : Slot) : Prop :=
  ∀ s : State, s.slot k = x → ∃ u, issueEach cs s = some u ∧ u.slots = s.slots.set k y

theorem issueEach_append (cs ds : List (Word × Instr)) (s : State) :
    issueEach (cs ++ ds) s = (issueEach cs s).bind (issueEach ds) := by
  induction cs generalizing s with
  | nil => rfl
  | cons c cs ih =>
    obtain ⟨a, i⟩ := c
    simp only [List.cons_append, issueEach, Option.bind_assoc, ih]

theorem Builds.nil (k : Fin Config.nslot) (x : Slot) : Builds k [] x x := by
  rintro s rfl
  exact ⟨s, rfl, (s.set_slot_self k).symm⟩

theorem Builds.append {k : Fin Config.nslot} {cs ds : List (Word × Instr)} {x y z : Slot} (hcs : Builds k cs x y)
    (hds : Builds k ds y z) : Builds k (cs ++ ds) x z := by
  intro s hx
  obtain ⟨t, ht, htslots⟩ := hcs s hx
  obtain ⟨u, hu, huslots⟩ := hds t (by rw [State.slot_of_slots_set htslots, if_pos rfl])
  refine ⟨u, by rw [issueEach_append, ht, Option.bind_some, hu], ?_⟩
  rw [huslots, htslots, Vector.set_set]

/-- One command builds what it writes to the slot. -/
theorem Builds.of_exec {k : Fin Config.nslot} {a : Word} {i : Instr} {x y : Slot}
    (h : ∀ s : State, s.arg0 = a → s.slot k = x → ∃ t, exec i s = .next t ∧ t.slots = s.slots.set k y) :
    Builds k [(a, i)] x y := by
  intro s hx
  obtain ⟨t, ht, hslots⟩ := h { s with arg0 := a } rfl hx
  exact ⟨t, by rw [issueEach, ht]; rfl, hslots⟩

section
variable {k : Fin Config.nslot} {x : Slot} (hc : x.sstat = .config)
include hc

theorem named_of_config {s : State} (hx : s.slot k = x) : named s k.val k :=
  ⟨rfl, by rw [hx, hc]; decide⟩

theorem not_active_of_config : ¬ x.sstat = .active := by
  rw [hc]
  decide

theorem builds_wrtab (hn : x.nent ≠ 16#5) (e : Entry) :
    Builds k [(e.setWidth 32, .wrtab k.val)] x (x.append e) := by
  refine .of_exec fun s ha hx => ⟨_, (wrtabResult s k.val).right k (named_of_config hc hx), ?_⟩
  have hfits := Nat.not_le_of_lt (toNat_register_lt (by decide) e)
  rw [ha, hx, if_neg (not_active_of_config hc), if_neg hfits, if_neg hn, setWidth_of_register (by decide)]
  rfl

/-- WRTAB after WRTAB appends the entries in their order. -/
theorem builds_wrtabs (es : List Entry) (hroom : x.nent.toNat + es.length ≤ 16) :
    Builds k (es.map fun e => (e.setWidth 32, .wrtab k.val)) x (es.foldl (fun y e => y.append e) x) := by
  induction es generalizing x with
  | nil => exact .nil k x
  | cons e es ih =>
    rw [List.length_cons] at hroom
    have hn : x.nent ≠ 16#5 := by bv_omega
    have hnext : (x.append e).nent.toNat = x.nent.toNat + 1 := by
      simp only [Slot.append]
      bv_omega
    exact (builds_wrtab hc hn e).append (ih (x := x.append e) hc (by omega))

theorem builds_wrfld_param (v : Word) : Builds k [(v, .wrfld k.val 0)] x { x with param := v } := by
  refine .of_exec fun s ha hx => ⟨_, (wrfldResult s k.val 0).right k (named_of_config hc hx), ?_⟩
  rw [ha, hx, if_neg (not_active_of_config hc)]
  rfl

theorem builds_wrfld_pin (pin : PinId) :
    Builds k [(pin.setWidth 32, .wrfld k.val 4)] x { x with pin := pin } := by
  refine .of_exec fun s ha hx => ⟨_, (wrfldResult s k.val 4).right k (named_of_config hc hx), ?_⟩
  have hfits : ¬ (4 = 4 ∧ 2 ^ 8 ≤ (pin.setWidth 32).toNat) :=
    fun h => Nat.not_le_of_lt (toNat_register_lt (by decide) pin) h.right
  rw [ha, hx, if_neg (not_active_of_config hc), if_neg (by decide), if_neg hfits, setWidth_of_register (by decide)]
  rfl

theorem builds_commit {q : Nibble} (hv : validate x.entries q = none) :
    Builds k [(q.setWidth 32, .commit k.val)] x { x with curState := q, sstat := .active } := by
  refine .of_exec fun s ha hx => ?_
  obtain ⟨-, -, hcommit⟩ := (commitResult s k.val).right k (named_of_config hc hx)
  rw [hx, ha, setWidth_of_register (by decide)] at hcommit
  exact ⟨_, (hcommit hc (toNat_register_lt (by decide) q)).left hv, rfl⟩

end

/-! ### The button -/

/-- The slot ALLOC leaves (R110). -/
def allocatedSlot : Slot := { Slot.free with sstat := .config, kind := .generic }

theorem issueEach_alloc {s : State} {k : Fin Config.nslot} (hk : leastFree s k) (a : Word) :
    ∃ t, issueEach [(a, .alloc)] s = some t ∧ t.slots = s.slots.set k allocatedSlot := by
  have halloc := (allocTakesLeastFree { s with arg0 := a }).left k hk
  exact ⟨_, by rw [issueEach, halloc]; rfl, rfl⟩

/-- The slot ALLOC leaves, with the preset table written to it. -/
def buttonUnderConstruction : Slot := { Slot.free.load buttonTable with sstat := .config }

theorem append_buttonTable :
    buttonTable.foldl (fun y e => y.append e) allocatedSlot = buttonUnderConstruction := by decide

theorem validate_buttonTable : validate buttonTable 0#4 = none := by decide

/-- The commands after ALLOC build the slot of NEW_BUTTON, but for its kind (R127). -/
theorem builds_button (k : Fin Config.nslot) (debounce : Word) (pin : PinId) :
    Builds k (buttonBuild k.val debounce pin).tail allocatedSlot
      { buttonSlotOf debounce pin with kind := .generic } := by
  have htable := builds_wrtabs (k := k) (x := allocatedSlot) rfl buttonTable (by decide)
  rw [append_buttonTable] at htable
  have hparam := builds_wrfld_param (k := k) (x := buttonUnderConstruction) rfl debounce
  have hpin := builds_wrfld_pin (k := k) (x := { buttonUnderConstruction with param := debounce }) rfl pin
  have hcommit := builds_commit (k := k) (x := { buttonUnderConstruction with param := debounce, pin := pin }) rfl
    (q := 0#4) validate_buttonTable
  exact htable.append (hparam.append (hpin.append hcommit))

/-- All the commands, with `k` the slot that ALLOC takes (R127). -/
theorem issueEach_buttonBuild {s : State} {k : Fin Config.nslot} (hk : leastFree s k) (debounce : Word) (pin : PinId) :
    ∃ u, issueEach (buttonBuild k.val debounce pin) s = some u ∧
      u.slots = s.slots.set k { buttonSlotOf debounce pin with kind := .generic } := by
  obtain ⟨t, ht, htslots⟩ := issueEach_alloc hk 0#32
  obtain ⟨u, hu, huslots⟩ := builds_button k debounce pin t (by rw [State.slot_of_slots_set htslots, if_pos rfl])
  refine ⟨u, ?_, by rw [huslots, htslots, Vector.set_set]⟩
  calc issueEach (buttonBuild k.val debounce pin) s
      = (issueEach [(0#32, .alloc)] s).bind (issueEach (buttonBuild k.val debounce pin).tail) :=
        issueEach_append [(0#32, .alloc)] _ s
    _ = some u := by rw [ht, Option.bind_some, hu]

end Sys2Proof.Machine

namespace Sys2Proof.Spec
open Sys2Proof.Machine

/-- Settles O48: NEW_BUTTON and ALLOC take the same slot, and the commands after ALLOC build the slot of NEW_BUTTON but
for its kind. -/
theorem newButtonIsBuildSequence : Obligations.NewButtonIsBuildSequence := by
  unfold Obligations.NewButtonIsBuildSequence
  refine ⟨validate_buttonTable, fun s k debounce pin hk => ?_⟩
  have hnew := exec_newButton_of_leastFree (s := { s with arg0 := debounce, arg1 := pin.setWidth 32 })
    (toNat_register_lt (by decide) pin) hk
  rw [pinOperand_setWidth] at hnew
  obtain ⟨u, hu, huslots⟩ := issueEach_buttonBuild hk debounce pin
  have hslot := State.slot_of_slots_set huslots
  refine ⟨_, u, hnew, hu, ?_, fun j hj => ?_, ?_, rfl, rfl⟩
  · simp [hslot]
  · rw [hslot, if_neg hj]
    exact (State.slot_setSlot_ne _ _ hj).symm
  · simp [buttonSlotOf]

end Sys2Proof.Spec
end

section
/-! The FIREs of a button: what each state does with the level of its pin, and the length of a press (42_button.md R123,
R124, R138). -/

namespace Sys2Proof.Machine
open Sys2Proof.Spec

/-! ### One FIRE with the preset table -/

theorem guardHolds_pinPressed (x : Slot) (t : Word) (lvl : Bool) : guardHolds 0x2#4 x t lvl = lvl := rfl

theorem guardHolds_pinReleased (x : Slot) (t : Word) (lvl : Bool) : guardHolds 0x3#4 x t lvl = !lvl := rfl

theorem guardHolds_timeout (x : Slot) (t : Word) (lvl : Bool) :
    guardHolds 0x4#4 x t lvl = deadlineReached t x.nextTimeout := rfl

/-- A FIRE looks at the entries of the current state only (R98, R99). -/
theorem accepted_eq_find?_filter (x : Slot) (t : Word) (lvl : Bool) :
    accepted x t lvl = (x.entries.filter fun e => decide (entrySrc e = x.curState)).find?
      fun e => guardHolds (entryGuard e) x t lvl := by
  simp [accepted, List.find?_filter]

/-- The entries of each state, the signal's reversal before the timeout (R123, R124). -/
theorem filter_source_buttonTable : ∀ q : Nibble,
    buttonTable.filter (fun e => decide (entrySrc e = q)) =
      if q = 0#4 then [0x0121#16]
      else if q = 1#4 then [0x1030#16, 0x1240#16]
      else if q = 2#4 then [0x2332#16]
      else if q = 3#4 then [0x3220#16, 0x3040#16]
      else [] := by decide

section
variable {x : Slot} (hx : x.entries = buttonTable) (t : Word) (lvl : Bool)
include hx

/-- Which entry of the preset table a FIRE accepts, by the state it starts in (R123). -/
theorem accepted_button :
    accepted x t lvl =
      if x.curState = 0#4 then (if lvl then some 0x0121#16 else none)
      else if x.curState = 1#4 then
        (if lvl then (if deadlineReached t x.nextTimeout then some 0x1240#16 else none) else some 0x1030#16)
      else if x.curState = 2#4 then (if lvl then none else some 0x2332#16)
      else if x.curState = 3#4 then
        (if lvl then some 0x3220#16 else if deadlineReached t x.nextTimeout then some 0x3040#16 else none)
      else none := by
  rw [accepted_eq_find?_filter, hx, filter_source_buttonTable]
  split_ifs <;> simp [*, entryGuard, guardHolds_pinPressed, guardHolds_pinReleased, guardHolds_timeout]

/-- What a FIRE makes of the slot, by the state it starts in (R123, R131, R132). -/
theorem firedSlot_button :
    firedSlot x t lvl =
      if x.curState = 0#4 then (if lvl then { x with t0 := t, nextTimeout := t + x.param, curState := 1#4 } else x)
      else if x.curState = 1#4 then
        (if lvl then (if deadlineReached t x.nextTimeout then { x with curState := 2#4 } else x)
          else { x with curState := 0#4 })
      else if x.curState = 2#4 then
        (if lvl then x else { x with duration := t - x.t0, nextTimeout := t + x.param, curState := 3#4 })
      else if x.curState = 3#4 then
        (if lvl then { x with curState := 2#4 }
          else if deadlineReached t x.nextTimeout then { x with curState := 0#4 } else x)
      else x := by
  rw [firedSlot, accepted_button hx]
  split_ifs <;> rfl

/-- No entry of the preset table drives a pin (R123). -/
theorem firedRequests_button : firedRequests x t lvl = [] := by
  rw [firedRequests, accepted_button hx]
  split_ifs <;> rfl

end

/-! ### FIREs at given ticks with a given level -/

theorem fireAt_of_active {s : State} {k : Fin Config.nslot} (ha : (s.slot k).sstat = .active) (t : Word) (b : Bool) :
    ∃ u, fireAt k t b s = some u ∧ u.slot k = firedSlot (s.slot k) t b := by
  have hlevel : ({ s with tick := t }.setPin (s.slot k).pin b).gpioRead (s.slot k).pin = b := by
    rw [State.gpioRead_setPin, if_pos rfl]
  have hfire := fireIsTransition ({ s with tick := t }.setPin (s.slot k).pin b) k ha
  refine ⟨_, congrArg nextOf hfire, ?_⟩
  refine (State.slot_set_slots_self s.slots k _).trans ?_
  exact congrArg (firedSlot (s.slot k) t) hlevel

/-- The slot of a button in a press that was detected at tick `t0` and is not released: in RELEASED_WAIT or PRESSED,
with T0 the tick of the press. -/
structure Slot.PressedSince (t0 : Word) (x : Slot) : Prop where
  active : x.sstat = .active
  preset : x.entries = buttonTable
  pressed : x.curState = 1#4 ∨ x.curState = 2#4
  start : x.t0 = t0

/-- The FIRE that detects a press (R131). -/
theorem firedSlot_pressedSince {x : Slot} (ha : x.sstat = .active) (hx : x.entries = buttonTable)
    (hc : x.curState = 0#4) (t : Word) : (firedSlot x t true).PressedSince t := by
  rw [firedSlot_button hx, if_pos hc]
  exact ⟨ha, hx, .inl rfl, rfl⟩

/-- A FIRE of a held button does not touch the tick of the press. -/
theorem Slot.PressedSince.firedSlot {t0 : Word} {x : Slot} (h : x.PressedSince t0) (t : Word) :
    (firedSlot x t true).PressedSince t0 := by
  obtain ⟨ha, hx, hpressed, hstart⟩ := h
  rw [firedSlot_button hx]
  rcases hpressed with hc | hc
  · rw [hc, if_neg (by decide), if_pos rfl, if_pos rfl]
    split_ifs
    · exact ⟨ha, hx, .inr rfl, hstart⟩
    · exact ⟨ha, hx, .inl hc, hstart⟩
  · rw [hc]
    exact ⟨ha, hx, .inr hc, hstart⟩

theorem Slot.PressedSince.fireHeld {t0 : Word} {k : Fin Config.nslot} {ts : List Word} {s u : State}
    (h : (s.slot k).PressedSince t0) (hu : fireHeld k ts s = some u) : (u.slot k).PressedSince t0 := by
  induction ts generalizing s with
  | nil => cases hu; exact h
  | cons t ts ih =>
    obtain ⟨v, hv, hslot⟩ := fireAt_of_active h.active t true
    rw [Spec.fireHeld, hv, Option.bind_some] at hu
    exact ih (hslot ▸ h.firedSlot t) hu

end Sys2Proof.Machine

namespace Sys2Proof.Spec
open Sys2Proof.Machine

/-- Settles O49: the entry that reverts stands before the timeout's, so `firedSlot_button` asks only for the level. -/
theorem revertWinsOverTimeout : Obligations.RevertWinsOverTimeout := by
  unfold Obligations.RevertWinsOverTimeout
  intro s k ha hx hidle
  have hfire := fireIsTransition s k ha
  rw [firedRequests_button hx, List.append_nil, ← hidle, firedSlot_button hx] at hfire
  constructor <;> (intro hc hlevel; rw [hfire, hc, hlevel]; rfl)

/-- Settles O50: the first FIRE records the tick of the press, those of the held button keep it, and the release
measures from it. -/
theorem pressLengthIsMeasured : Obligations.PressLengthIsMeasured := by
  unfold Obligations.PressLengthIsMeasured
  intro s u k t0 t1 ts ha hx hc hu hpressed
  obtain ⟨p, hp, hpslot⟩ := fireAt_of_active ha t0 true
  rw [fireHeld, hp, Option.bind_some] at hu
  have hsince := firedSlot_pressedSince ha hx hc t0
  rw [← hpslot] at hsince
  obtain ⟨hactive, hpreset, -, hstart⟩ := hsince.fireHeld hu
  obtain ⟨v, hv, hvslot⟩ := fireAt_of_active hactive t1 false
  rw [firedSlot_button hpreset, hpressed] at hvslot
  refine ⟨v, hv, ?_⟩
  rw [hvslot, ← hstart]
  exact ⟨rfl, rfl⟩

end Sys2Proof.Spec
end

section
/-! The blink machine: what NEW_BLINK answers, when a FIRE toggles, and that the pin follows the state (43_blink.md R139
to R145). -/

namespace Sys2Proof.Machine
open Sys2Proof.Spec

/-! ### NEW_BLINK -/

/-- NEW_BLINK with a pin id that fits takes the least FREE slot (R141). -/
theorem exec_newBlink_of_leastFree {s : State} {k : Fin Config.nslot} (hfits : s.arg1.toNat < 2 ^ 8)
    (hk : leastFree s k) :
    exec .newBlink s =
      .next (((s.setSlot k (blinkSlotOf s.arg0 (pinOperand s.arg1) s.tick)).sendGpio
        (.write (pinOperand s.arg1) false)).setResult (slotResult k)).ok := by
  simp only [exec, execNewBlink, fitsIn_eq_false_iff, Nat.not_le_of_lt hfits, if_false,
    State.firstFree_eq_some.mpr hk]

/-! ### One FIRE with the preset table -/

theorem guardHolds_halfPeriod (x : Slot) (t : Word) (lvl : Bool) :
    guardHolds 0x5#4 x t lvl = decide (x.param.toNat / 2 ≤ (t - x.t0).toNat) := rfl

/-- Each of the two states has one entry (R140). -/
theorem filter_source_blinkTable : ∀ q : Nibble, q = 0#4 ∨ q = 1#4 →
    blinkTable.filter (fun e => decide (entrySrc e = q)) = [if q = 0#4 then 0x0153#16 else 0x1053#16] := by decide

section
variable {x : Slot} (hx : x.entries = blinkTable) (hc : x.curState = 0#4 ∨ x.curState = 1#4) (t : Word) (lvl : Bool)
include hx hc

/-- A FIRE accepts the entry of the current state once half the period has elapsed (R140, R143). -/
theorem accepted_blink :
    accepted x t lvl =
      if (t - x.t0).toNat < x.param.toNat / 2 then none
      else some (if x.curState = 0#4 then 0x0153#16 else 0x1053#16) := by
  have hguard : entryGuard (if x.curState = 0#4 then 0x0153#16 else 0x1053#16) = 0x5#4 := by split_ifs <;> rfl
  rw [accepted_eq_find?_filter, hx, filter_source_blinkTable _ hc, List.find?_singleton, hguard, guardHolds_halfPeriod]
  simp only [decide_eq_true_iff, ← Nat.not_lt, ite_not]

/-- What a FIRE makes of the slot (R144, R145). -/
theorem firedSlot_blink :
    firedSlot x t lvl =
      if (t - x.t0).toNat < x.param.toNat / 2 then x
      else { x with t0 := t, curState := if x.curState = 0#4 then 1#4 else 0#4 } := by
  rw [firedSlot, accepted_blink hx hc]
  split_ifs <;> rfl

/-- A FIRE that takes a transition toggles the pin, once (R144). -/
theorem firedRequests_blink :
    firedRequests x t lvl = if (t - x.t0).toNat < x.param.toNat / 2 then [] else [.toggle x.pin] := by
  rw [firedRequests, accepted_blink hx hc]
  split_ifs <;> rfl

end

/-! ### The level a pin was last driven to -/

section
variable {p : PinId} (earlier : List GpioRequest)

theorem lastLevel_concat_write (b : Bool) : lastLevel p (earlier ++ [.write p b]) = some b := by
  simp [lastLevel]

theorem lastLevel_concat_toggle : lastLevel p (earlier ++ [.toggle p]) = (lastLevel p earlier).map not := by
  simp [lastLevel]

theorem lastLevel_concat_of_ne {r : GpioRequest} (h : requestPin r ≠ p) :
    lastLevel p (earlier ++ [r]) = lastLevel p earlier := by
  cases r <;> (rw [requestPin] at h; simp [lastLevel, h])

/-- Requests for other pins do not touch the level. -/
theorem lastLevel_append_of_ne {out : List GpioRequest} (h : ∀ r ∈ out, requestPin r ≠ p) :
    lastLevel p (earlier ++ out) = lastLevel p earlier := by
  induction out generalizing earlier with
  | nil => rw [List.append_nil]
  | cons r out ih =>
    rw [List.forall_mem_cons] at h
    rw [List.append_cons, ih _ h.2, lastLevel_concat_of_ne _ h.1]

end

/-- A request that toggles the pin and a flip of the state go together (R139, R144). -/
theorem blinkAgrees_of_toggle {s t : State} {k : Fin Config.nslot} (h : blinkAgrees s k)
    (hc : (s.slot k).curState = 0#4 ∨ (s.slot k).curState = 1#4)
    (hout : t.gpioOut = s.gpioOut ++ [.toggle (s.slot k).pin]) (hpin : (t.slot k).pin = (s.slot k).pin)
    (hflip : (t.slot k).curState = if (s.slot k).curState = 0#4 then 1#4 else 0#4) : blinkAgrees t k := by
  rw [blinkAgrees, hpin, hout, lastLevel_concat_toggle, h, hflip]
  rcases hc with hc | hc <;> (rw [hc]; rfl)

/-! ### What the invariant and the other commands leave of a blink slot -/

/-- A good blink slot is ACTIVE with the preset table, in OFF or ON (R53, R54). -/
theorem Slot.blink_of_good {x : Slot} (h : x.good = true) (hk : x.kind = .blink) :
    x.sstat = .active ∧ x.entries = blinkTable ∧ (x.curState = 0#4 ∨ x.curState = 1#4) := by
  obtain ⟨hsource, hpreset⟩ := Slot.preset_of_good h (by simp [hk])
  simp only [presetTable, hk, decide_eq_true_iff] at hpreset
  rw [hpreset] at hsource
  refine ⟨?_, hpreset, ?_⟩
  · cases hst : x.sstat with
    | free => rw [Slot.eq_free_of_good hst h] at hk; cases hk
    | config =>
      obtain ⟨-, hgeneric, -⟩ := (Slot.good_of_config hst).mp h
      rw [hgeneric] at hk; cases hk
    | active => rfl
  · have hlt := toNat_lt_of_isSource_blinkTable _ hsource
    bv_omega

/-- A command other than FIRE of it leaves an ACTIVE slot that is no button as it is, unless the slot ends (R53). -/
theorem exec_keeps_active_slot {i : Instr} {s t : State} {k : Fin Config.nslot} (hf : i.format = .cmd32)
    (h : exec i s = .next t) (hi : i ≠ .fire k.val) (ha : (s.slot k).sstat = .active)
    (hk : (s.slot k).kind ≠ .button) (ht : (t.slot k).sstat = .active) : t.slot k = s.slot k := by
  have hnamed : named s k.val k := ⟨rfl, by simp [ha]⟩
  by_cases hw : mayWriteSlot i s k
  · rcases hw with hn | ⟨-, hfree, -⟩ | ⟨hformat, -⟩
    · cases i with
      | fire => cases hn; exact absurd rfl hi
      | wrtab | wrfld | commit =>
        cases hn
        simp only [exec, execWrtab, execWrfld, execCommit, State.configSlot_of_active hnamed ha] at h
        cases h
        rfl
      | destroy =>
        cases hn
        simp only [exec, execDestroy, State.liveSlot_of_named hnamed] at h
        cases h
        rw [State.ok_slot, State.clearSlot, State.slot_setSlot_self] at ht
        cases ht
      | resetDuration =>
        cases hn
        simp only [exec, execResetDuration, State.buttonSlot_of_other hnamed hk] at h
        cases h
        rfl
      | rdstate | rdfld | rdtab | getDuration | checkActivity =>
        exact State.slot_of_slots_eq (exec_keeps_slots h rfl) k
      | _ => cases hn
    · rw [ha] at hfree; cases hfree
    · rw [hf] at hformat; cases hformat
  · exact otherSlotsUntouched i s t k h hw

end Sys2Proof.Machine

namespace Sys2Proof.Spec
open Sys2Proof.Machine

/-- Settles O46: the checks of the pin id and of a FREE slot in their order, then the slot is `blinkSlotOf`. -/
theorem newBlinkResult : Obligations.NewBlinkResult := by
  unfold Obligations.NewBlinkResult
  refine fun s => ⟨fun hwide => ?_, fun hfits hno => ?_, fun k hfits hk => ?_⟩
  · rw [exec, execNewBlink]
    exact if_pos (fitsIn_eq_false_iff.mpr hwide)
  · simp only [exec, execNewBlink, fitsIn_eq_false_iff, Nat.not_le_of_lt hfits, if_false,
      State.firstFree_eq_none.mpr hno]
    rfl
  · exact ⟨_, exec_newBlink_of_leastFree hfits hk, rfl, rfl, rfl, rfl, toNat_pinOperand hfits, rfl, rfl, rfl, rfl,
      rfl⟩

/-- Settles O51: FIRE is the transition of O31, whose slot and requests ask only whether half the period has elapsed. -/
theorem blinkTogglesAfterHalfPeriod : Obligations.BlinkTogglesAfterHalfPeriod := by
  unfold Obligations.BlinkTogglesAfterHalfPeriod
  intro s k ha hx hc hidle
  rw [fireIsTransition s k ha, firedSlot_blink hx hc, firedRequests_blink hx hc, ← hidle]
  by_cases hearly : (s.tick - (s.slot k).t0).toNat < (s.slot k).param.toNat / 2
  · simp only [if_pos hearly, State.set_slot_self, List.append_nil]
  · simp only [if_neg hearly]

/-- Settles O52: NEW_BLINK drives the pin low in OFF; a FIRE of the slot flips its state and its pin together; any other
command leaves the slot, and its requests are for other pins. -/
theorem blinkPinAgreesWithState : Obligations.BlinkPinAgreesWithState := by
  unfold Obligations.BlinkPinAgreesWithState
  refine ⟨fun s t k hk hfits h => ?_, fun i s t k out ⟨hgood, hidle⟩ hf hkind hagrees h hout hother ht => ?_⟩
  · rw [exec_newBlink_of_leastFree hfits hk] at h
    cases h
    simp [blinkAgrees, lastLevel_concat_write, blinkSlotOf]
  · obtain ⟨ha, hx, hc⟩ := Slot.blink_of_good (hgood k) hkind
    by_cases hi : i = .fire k.val
    · rw [hi, blinkTogglesAfterHalfPeriod s k ha hx hc hidle] at h
      cases h
      split
      · exact hagrees
      · exact blinkAgrees_of_toggle hagrees hc rfl (by simp [State.slot]) (by simp [State.slot])
    · have hslot := exec_keeps_active_slot hf h hi ha (by simp [hkind]) ht
      rw [blinkAgrees, hslot, hout, lastLevel_append_of_ne _ (hother.resolve_left hi)]
      exact hagrees

end Sys2Proof.Spec
end

section
/-! The two comparisons counted along the circle of tick values (44_timebase.md R149 to R151). -/

namespace Sys2Proof.Machine

/-- Fewer than 2^31 ticks past the deadline it reads as reached (log entry 12). -/
theorem deadlineReached_add {j : Nat} (hj : j < 2 ^ 31) (d : Word) :
    deadlineReached (d + BitVec.ofNat 32 j) d = true := by
  rw [deadlineReached_iff, add_sub_cancel_left]
  exact Nat.lt_of_le_of_lt (Nat.mod_le _ _) hj

theorem deadlineReached_self (d : Word) : deadlineReached d d = true := by
  simpa using deadlineReached_add (j := 0) (by decide) d

/-- Up to 2^31 ticks ahead of the deadline it reads as not reached (log entry 12). -/
theorem deadlineReached_before {k j : Nat} (hk : k ≤ 2 ^ 31) (hj : j < k) (d : Word) :
    deadlineReached (d - BitVec.ofNat 32 k + BitVec.ofNat 32 j) d = false := by
  have hdiff : (d - BitVec.ofNat 32 k + BitVec.ofNat 32 j - d).toNat = 2 ^ 32 - (k - j) := by bv_omega
  rw [← Bool.not_eq_true, deadlineReached_iff, hdiff]
  omega

/-- `k` ticks before a value and `k + j` ticks on is `j` ticks past it. -/
theorem sub_ofNat_add_ofNat (d : Word) (k j : Nat) :
    d - BitVec.ofNat 32 k + BitVec.ofNat 32 (k + j) = d + BitVec.ofNat 32 j := by
  rw [BitVec.ofNat_add, ← BitVec.add_assoc, BitVec.sub_add_cancel]

/-- Where no wrap separates two values less than 2^31 apart, the comparison is the unsigned one (R151 (c)). -/
theorem deadlineReached_iff_le {now d : Word} (hahead : now.toNat < d.toNat + 2 ^ 31)
    (hbehind : d.toNat < now.toNat + 2 ^ 31) : deadlineReached now d = true ↔ d.toNat ≤ now.toNat := by
  rw [deadlineReached_iff]
  bv_omega

/-- `j` ticks after the start, `n` have elapsed exactly when `n ≤ j` (R151 (d)). -/
theorem elapsedAtLeast_add {j : Nat} (hj : j < 2 ^ 32) (start n : Word) :
    elapsedAtLeast (start + BitVec.ofNat 32 j) start n = true ↔ n.toNat ≤ j := by
  rw [elapsedAtLeast, decide_eq_true_iff, add_sub_cancel_left, BitVec.toNat_ofNat, Nat.mod_eq_of_lt hj]

/-- At the start itself no tick has elapsed. -/
theorem elapsedAtLeast_self {start n : Word} : elapsedAtLeast start start n = true ↔ n = 0#32 := by
  rw [elapsedAtLeast, decide_eq_true_iff, BitVec.sub_self, ← BitVec.toNat_inj]
  exact Nat.le_zero

end Sys2Proof.Machine

namespace Sys2Proof.Spec
open Sys2Proof.Machine

/-- Settles O15: the sign bit of the difference is clear exactly below 2^31. -/
theorem deadlineHalfCircle : Obligations.DeadlineHalfCircle := by
  unfold Obligations.DeadlineHalfCircle
  exact fun now d => deadlineReached_iff

/-- Settles O16: counted from `k` ticks before the deadline, the first `k` ticks lie before it and the next 2^31 from it
on; one tick before it is the case `k = 1`, and 2^31 ticks past it is the case `k = 2 ^ 31`. -/
theorem deadlineCountdown : Obligations.DeadlineCountdown := by
  unfold Obligations.DeadlineCountdown
  refine ⟨fun d => ⟨?_, ?_⟩, fun d k _ hk => ⟨fun j hj => ?_, fun j hj => ?_⟩, fun d => ?_, fun now d => ?_⟩
  · exact deadlineReached_self d
  · simpa using deadlineReached_before (k := 1) (j := 0) (by decide) (by decide) d
  · exact deadlineReached_before hk hj d
  · rw [sub_ofNat_add_ofNat]
    exact deadlineReached_add hj d
  · have hhalf : d + 0x80000000#32 = d - BitVec.ofNat 32 (2 ^ 31) + BitVec.ofNat 32 0 := by bv_omega
    rw [hhalf]
    exact deadlineReached_before (Nat.le_refl _) (by decide) d
  · exact deadlineReached_iff_le

/-- Settles O17: 2^32 ticks after the start the counter is at the start again, where only 0 ticks have elapsed. -/
theorem elapsedCountdown : Obligations.ElapsedCountdown := by
  unfold Obligations.ElapsedCountdown
  refine ⟨fun now start => ?_, fun start n j hj => elapsedAtLeast_add hj start n, fun start n hn => ?_⟩
  · exact decide_eq_true (Nat.zero_le _)
  · have hwrap : start + BitVec.ofNat 32 (2 ^ 32) = start := by bv_omega
    rw [hwrap, ← Bool.not_eq_true, elapsedAtLeast_self]
    rintro rfl
    exact absurd hn (by decide)

end Sys2Proof.Spec
end

section
/-! The tick agent's step, the delays it completes and the test hooks (44_timebase.md R146, R152 to R161). -/

namespace Sys2Proof.Machine
open Sys2Proof.Spec

/-! ### The issue steps -/

theorem exec_delay_of_zero {s : State} (h : s.arg0 = 0#32) : exec .delay s = .next { s with err := .ok } :=
  if_pos (elapsedAtLeast_self.mpr h)

theorem exec_delay_of_ne_zero {s : State} (h : s.arg0 ≠ 0#32) :
    exec .delay s = .next { s with pending := .delay s.tick s.arg0 } :=
  if_neg fun helapsed => h (elapsedAtLeast_self.mp helapsed)

theorem exec_delayUntil_of_reached {s : State} (h : (s.tick - (s.arg0 + s.arg1)).toNat < 2 ^ 31) :
    exec .delayUntil s = .next { s with arg0 := s.tick, result := s.tick, err := .ok } :=
  if_pos (deadlineReached_iff.mpr h)

theorem exec_delayUntil_of_not_reached {s : State} (h : 2 ^ 31 ≤ (s.tick - (s.arg0 + s.arg1)).toNat) :
    exec .delayUntil s = .next { s with pending := .delayUntil (s.arg0 + s.arg1) } :=
  if_neg fun hreached => Nat.not_lt.mpr h (deadlineReached_iff.mp hreached)

theorem exec_tickstep_of_disabled {s : State} (h : s.tickEn = false) :
    exec .tickstep s = .next { s with tick := s.tick + s.arg0, err := .ok } :=
  if_neg ((Bool.not_eq_true _).mpr h)

theorem exec_tickset_of_disabled {s : State} (h : s.tickEn = false) :
    exec .tickset s = .next { s with tick := s.arg0, err := .ok } :=
  if_neg ((Bool.not_eq_true _).mpr h)

/-! ### Many tick steps -/

/-- The state when TICK is `n` higher and nothing else has changed: what `n` tick steps leave while they complete no
delay (`State.tickStep_iterate`). -/
def State.afterTicks (n : Nat) (s : State) : State := { s with tick := s.tick + BitVec.ofNat 32 n }

theorem State.afterTicks_toNat (n : Word) (s : State) : s.afterTicks n.toNat = { s with tick := s.tick + n } := by
  rw [State.afterTicks, BitVec.ofNat_toNat, BitVec.setWidth_eq]

/-- The next tick step adds one more to TICK, then a pending delay may complete (R146). -/
theorem State.tickStep_afterTicks (n : Nat) (s : State) :
    (s.afterTicks n).tickStep = (s.afterTicks (n + 1)).completePending := by
  simp only [State.tickStep, State.afterTicks, BitVec.add_assoc, BitVec.ofNat_add]

/-- Tick steps that complete no delay only count TICK up. -/
theorem State.tickStep_iterate {s : State} {m : Nat}
    (hwait : ∀ j, 0 < j → j ≤ m → (s.afterTicks j).completePending = s.afterTicks j) :
    State.tickStep^[m] s = s.afterTicks m := by
  induction m with
  | zero => simp [State.afterTicks]
  | succ m ih =>
    rw [Function.iterate_succ_apply', ih fun j hpos hj => hwait j hpos (Nat.le_succ_of_le hj),
      State.tickStep_afterTicks, hwait (m + 1) (Nat.succ_pos m) (Nat.le_refl _)]

/-- Where no tick step before the `n`-th completes the pending delay, the steps before it only count TICK up, and
whether the delay completes in the `n`-th is asked at TICK `n` higher. -/
theorem State.tickStep_iterate_until {s : State} {n : Nat} (hn : 0 < n)
    (hwait : ∀ j, 0 < j → j < n → (s.afterTicks j).completePending = s.afterTicks j) :
    (∀ m, m < n → State.tickStep^[m] s = s.afterTicks m) ∧
      State.tickStep^[n] s = (s.afterTicks n).completePending := by
  have hbefore : ∀ m, m < n → State.tickStep^[m] s = s.afterTicks m := fun m hm =>
    State.tickStep_iterate fun j hpos hj => hwait j hpos (Nat.lt_of_le_of_lt hj hm)
  refine ⟨hbefore, ?_⟩
  obtain ⟨m, rfl⟩ := Nat.exists_eq_succ_of_ne_zero hn.ne'
  rw [Function.iterate_succ_apply', hbefore m (Nat.lt_succ_self m), State.tickStep_afterTicks]

/-! ### When a pending delay completes -/

theorem State.completePending_of_none {s : State} (h : s.pending = .none) : s.completePending = s := by
  simp only [State.completePending, h]

theorem State.completePending_of_delay {s : State} {start n : Word} (h : s.pending = .delay start n) :
    s.completePending = if elapsedAtLeast s.tick start n then s.completeDelay else s := by
  simp only [State.completePending, h]

theorem State.completePending_of_delayUntil {s : State} {target : Word} (h : s.pending = .delayUntil target) :
    s.completePending = if deadlineReached s.tick target then s.completeDelayUntil else s := by
  simp only [State.completePending, h]

/-- `j` ticks after its start a DELAY's count is reached exactly when it is at most `j`. -/
theorem State.tickStep_iterate_of_delay {s : State} {n : Word} (hp : s.pending = .delay s.tick n) (hn : n ≠ 0#32) :
    (∀ m, m < n.toNat → State.tickStep^[m] s = s.afterTicks m) ∧
      State.tickStep^[n.toNat] s = { s with tick := s.tick + n }.completeDelay := by
  have hpos : 0 < n.toNat := Nat.pos_of_ne_zero fun h => hn (BitVec.eq_of_toNat_eq h)
  have helapsed {j : Nat} (hj : j < 2 ^ 32) := elapsedAtLeast_add hj s.tick n
  obtain ⟨hbefore, hlast⟩ := State.tickStep_iterate_until (s := s) hpos fun j _ hj => by
    rw [State.completePending_of_delay (s := s.afterTicks j) hp]
    exact if_neg fun h => Nat.not_le_of_lt hj ((helapsed (hj.trans n.isLt)).mp h)
  refine ⟨hbefore, ?_⟩
  rw [hlast, State.completePending_of_delay (s := s.afterTicks n.toNat) hp, ← State.afterTicks_toNat]
  exact if_pos ((helapsed n.isLt).mpr (Nat.le_refl _))

/-- A target that is not reached lies at most 2^31 ticks ahead, so no tick before it reads as past it (log entry 12). -/
theorem State.tickStep_iterate_of_delayUntil {s : State} {target : Word} (hp : s.pending = .delayUntil target)
    (h : 2 ^ 31 ≤ (s.tick - target).toNat) :
    (∀ m, m < (target - s.tick).toNat → State.tickStep^[m] s = s.afterTicks m) ∧
      State.tickStep^[(target - s.tick).toNat] s = { s with tick := target }.completeDelayUntil := by
  have hpos : 0 < (target - s.tick).toNat := by bv_omega
  have hhalf : (target - s.tick).toNat ≤ 2 ^ 31 := by bv_omega
  have hstart : s.tick = target - BitVec.ofNat 32 (target - s.tick).toNat := by
    rw [BitVec.ofNat_toNat, BitVec.setWidth_eq, sub_sub_cancel]
  have hend : s.afterTicks (target - s.tick).toNat = { s with tick := target } := by
    rw [State.afterTicks_toNat, add_sub_cancel]
  obtain ⟨hbefore, hlast⟩ := State.tickStep_iterate_until (s := s) hpos fun j _ hj => by
    have hnot : deadlineReached (s.tick + BitVec.ofNat 32 j) target = false :=
      hstart ▸ deadlineReached_before hhalf hj target
    rw [State.completePending_of_delayUntil (s := s.afterTicks j) hp]
    exact if_neg ((Bool.not_eq_true _).mpr hnot)
  refine ⟨hbefore, ?_⟩
  rw [hlast, hend, State.completePending_of_delayUntil (s := { s with tick := target }) hp]
  exact if_pos (deadlineReached_self target)

/-! ### The step that takes a tick event -/

/-- The tick event that is taken while TICK_EN = 1 is a tick step (R146, R147). -/
theorem step_of_tick {s : State} {before rest : List Input} (ht : s.tickEn = true)
    (h : comesNext s .tick before rest) :
    step s = .next (State.tickStep { s with engine := Engine.idle, inputs := before ++ rest }) := by
  rw [step_of_comesNext rfl h, runInput, State.tickEvent, if_pos ht]

end Sys2Proof.Machine

namespace Sys2Proof.Spec
open Sys2Proof.Machine

/-- Settles O23: what the issue step leaves is the start of the wait that `State.tickStep_iterate_of_delay` counts. -/
theorem delayTakesExactlyNTicks : Obligations.DelayTakesExactlyNTicks := by
  unfold Obligations.DelayTakesExactlyNTicks
  exact fun s hn => ⟨_, exec_delay_of_ne_zero hn, State.tickStep_iterate_of_delay rfl hn⟩

/-- Settles O24: what the issue step leaves is the start of the wait that `State.tickStep_iterate_of_delayUntil`
counts. -/
theorem delayUntilReturnsAtTarget : Obligations.DelayUntilReturnsAtTarget := by
  unfold Obligations.DelayUntilReturnsAtTarget
  intro s hahead
  refine ⟨_, exec_delayUntil_of_not_reached hahead, ?_⟩
  exact State.tickStep_iterate_of_delayUntil (s := { s with pending := .delayUntil (s.arg0 + s.arg1) }) rfl hahead

/-- Settles O28: with no delay pending, tick steps only count TICK up. -/
theorem tickstepIsTickSteps : Obligations.TickstepIsTickSteps := by
  unfold Obligations.TickstepIsTickSteps
  intro s hstopped hp
  rw [exec_tickstep_of_disabled hstopped, State.tickStep_iterate fun j _ _ => State.completePending_of_none hp,
    State.afterTicks_toNat]

/-- Settles O18: the step is a tick step, which one lemma gives for each PENDING. -/
theorem tickStep : Obligations.TickStep := by
  unfold Obligations.TickStep
  intro s before rest ht h
  rw [step_of_tick ht h]
  refine ⟨fun hp => ?_, fun start n hp => ?_, fun target hp => ?_⟩
  · exact congrArg Host.Outcome.next (State.tickStep_of_none hp)
  · exact congrArg Host.Outcome.next (State.tickStep_of_delay hp)
  · exact congrArg Host.Outcome.next (State.tickStep_of_delayUntil hp)

/-- Settles O20: the two words decode by evaluation, and each command is one arm of `exec`. -/
theorem nopAndNow : Obligations.NopAndNow := by
  unfold Obligations.NopAndNow
  exact ⟨by decide, by decide, fun s => ⟨rfl, rfl⟩⟩

/-- Settles O21: no tick has elapsed at issue, so only a DELAY of 0 is over at once; STATUS is `State.status_eq`. -/
theorem delayIssue : Obligations.DelayIssue := by
  unfold Obligations.DelayIssue
  exact fun s => ⟨exec_delay_of_zero, exec_delay_of_ne_zero, errNumber_eq s.err ▸ s.status_eq⟩

/-- Settles O22: whether the target is reached is asked once, at issue. -/
theorem delayUntilIssue : Obligations.DelayUntilIssue := by
  unfold Obligations.DelayUntilIssue
  exact fun s => ⟨exec_delayUntil_of_reached, exec_delayUntil_of_not_reached⟩

/-- Settles O27: the two words decode by evaluation, and TICK_EN alone decides between each hook's two outcomes. -/
theorem tickHooks : Obligations.TickHooks := by
  unfold Obligations.TickHooks
  refine ⟨by decide, by decide, fun s => ⟨?_, ?_, ?_, ?_⟩⟩
  · exact exec_tickset_of_disabled
  · exact exec_of_writesTick_of_enabled rfl
  · exact exec_tickstep_of_disabled
  · exact exec_of_writesTick_of_enabled rfl

end Sys2Proof.Spec
end

section
/-! Every instruction answers, and what a command that reports an error changes (60_exceptions.md R162, R163, R168). -/

namespace Sys2Proof.Machine
open Sys2Proof.Spec

/-- Answers that are alike go on, so a command compared with itself answers (R162). -/
theorem exec_command_answers {i : Instr} (hf : i.format = .cmd32) (s : State) : ∃ t, exec i s = .next t := by
  obtain ⟨t, -, -, ht, -⟩ := exec_answersAlike_of_toBlock (s := s) hf rfl fun _ _ => rfl
  exact ⟨t, ht⟩

/-- A guard or an action has no check that could refuse it (R105, R109). -/
theorem exec_entry_answers {i : Instr} (hf : i.format ≠ .cmd32) (s : State) : ∃ t, exec i s = .next t := by
  cases i with
  | gFalse | gTrue | gPinPressed | gPinReleased | gTimeout | gHalfPeriod => exact ⟨_, rfl⟩
  | aNone | aPressStart | aReleaseStart | aToggle => exact ⟨_, rfl⟩
  | _ => exact absurd rfl hf

/-- What a command's end says of ERR (R163): only a refusal, a delay left pending and a COMMIT that fails validation do
not write OK. -/
theorem CommandEffect.err_cases {i : Instr} {s t : State} (h : CommandEffect i s t) :
    t.err = .ok ∨ t = { s with err := t.err } ∨ (t.err = s.err ∧ t = { s with pending := t.pending } ∧ waits i = true) ∨
      (t.err = .badTable ∧ ∃ n, i = .commit n) := by
  cases h with
  | refused e => exact .inr (.inl rfl)
  | waiting hw p => exact .inr (.inr (.inl ⟨rfl, rfl, hw⟩))
  | rejected hi v => exact .inr (.inr (.inr ⟨rfl, _, hi⟩))
  | answered | result | ticked | reached | wrote | wroteResult | drove | fired => exact .inl rfl

end Sys2Proof.Machine

namespace Sys2Proof.Spec
open Sys2Proof.Machine

/-- Settles O54: ERR is read off each way a command can end. -/
theorem errorsChangeOnlyErr : Obligations.ErrorsChangeOnlyErr := by
  unfold Obligations.ErrorsChangeOnlyErr
  exact fun i s t hf h => (exec_command_effect hf h).err_cases

/-- Settles O53: a command answers by what its answer depends on, a guard or an action by its arm of `exec`. -/
theorem instructionsNeverStop : Obligations.InstructionsNeverStop := by
  unfold Obligations.InstructionsNeverStop
  intro i s
  by_cases hf : i.format = .cmd32
  · exact exec_command_answers hf s
  · exact exec_entry_answers hf s

end Sys2Proof.Spec
end

section
/-! A reset, from any state (70_reset_and_hazards.md R181). -/

namespace Sys2Proof.Machine

/-- A reset leaves of a state only what its environment holds (R181; log entry 13). -/
theorem State.resetBlock_eq (s : State) :
    s.resetBlock = { State.reset with gpioOut := s.gpioOut, reads := s.reads, pins := s.pins, inputs := s.inputs } :=
  rfl

end Sys2Proof.Machine

namespace Sys2Proof.Spec
open Sys2Proof.Machine

/-- Settles O13: a reset is taken from behind a stalled host's accesses too, and `State.resetBlock` keeps nothing of the
block it finds. -/
theorem resetAtAnyTime : Obligations.ResetAtAnyTime := by
  unfold Obligations.ResetAtAnyTime
  intro s before rest h
  rw [step_of_comesNext rfl h, runInput, State.resetBlock_eq]

end Sys2Proof.Spec
end
